-- ==== Sys2Proof/Word.lean ====
section
/-! DEFINITION. The values the engine moves: bytes, 16-bit words, 64-bit lanes, the 1600-bit state and
bit sequences (rule R9 of 00_scope.md). -/

namespace Sys2Proof

/-- A byte; `b.getLsbD 0` is its least significant bit (R9). -/
abbrev Byte := BitVec 8

/-- A command, response or status word (R50, R55, R23). -/
abbrev Word16 := BitVec 16

/-- A 64-bit lane value; bit `z` is the bit of weight `2^z` (R9). -/
abbrev Lane := BitVec 64

/-- A sequence of exactly 1600 bits `S[0] … S[1599]`; `S[i]` is `S.getLsbD i` (R10). -/
abbrev KState := BitVec 1600

/-- A bit sequence `s[0], s[1], …`, the first bit first (R9). -/
abbrev Bits := List Bool

end Sys2Proof
end

