-- ==== Sys2Proof/Config.lean ====
section
/-! DEFINITION. The fixed parameters of the hardware (rule R7 of 00_scope.md) and the parameters a build
fixes (rule R8). -/

namespace Sys2Proof

namespace Param

/-- `B`: the state width in bits (R7). -/
abbrev stateBits : Nat := 1600

/-- `W`: the lane width in bits (R7). -/
abbrev laneBits : Nat := 64

/-- `NLANE`: the number of lanes (R7). -/
abbrev laneCount : Nat := 25

/-- `NR`: the rounds of one permutation (R7). -/
abbrev rounds : Nat := 24

/-- `RATE`: the bits XORed on absorb (R7). -/
abbrev rate : Nat := 1088

/-- `CAP`: the capacity, `B - RATE` (R7). -/
abbrev capacity : Nat := 512

/-- `DLEN`: the digest length in bits (R7). -/
abbrev digestBits : Nat := 256

end Param

/-- The parameters a build of one engine fixes (R8; `none` is the model's default, unbounded).
No command writes them. -/
structure Config where
  /-- `MAX_MSG_BYTES`: the largest message SP.HASH accepts (D13). -/
  maxMsgBytes : Option Nat
  /-- `BLK_W`: the width of the block counters BLK and NBLK (R19). -/
  blkWidth : Option Nat
  deriving DecidableEq, Repr

namespace Config

/-- The model's default build: no bound on the message, unbounded block counters (R8, D13). -/
def unbounded : Config := { maxMsgBytes := none, blkWidth := none }

/-- Does a message of `len` bytes exceed MAX_MSG_BYTES (R124)? -/
def exceeds (c : Config) (len : Nat) : Bool :=
  match c.maxMsgBytes with
  | none => false
  | some bound => decide (bound < len)

/-- R8: BLK_W "must hold `MAX_MSG_BYTES div 136 + 1`". -/
def wf (c : Config) : Bool :=
  match c.blkWidth, c.maxMsgBytes with
  | none, _ => true
  | some _, none => false
  | some w, some bound => decide (bound / 136 + 1 < 2 ^ w)

end Config

end Sys2Proof
end

