-- ==== Sys2Proof/Syntax.lean ====
section
/-! DEFINITION. The 14 commands, one constructor per row of spec/opcode_table.json (rule R53 of
30_encoding.md), and the typed values of the data channels (rule R31 of 20_memory.md). -/

namespace Sys2Proof

/-- The kinds of operand and result (R31). -/
inductive Kind where
  | none | bytes | bits | lane | state | word
  deriving DecidableEq, Repr

/-- A value on DIN or DOUT (R31). -/
inductive Data where
  /-- no data -/
  | none
  /-- a finite sequence of bytes -/
  | bytes (m : List Byte)
  /-- a finite sequence of bits -/
  | bits (s : Bits)
  /-- a 64-bit value -/
  | lane (v : Lane)
  /-- exactly 1600 bits -/
  | state (t : KState)
  /-- a 16-bit value -/
  | word (w : Word16)
  deriving DecidableEq, Repr

/-- The kind of a value (R31). -/
def Data.kind : Data → Kind
  | .none => .none
  | .bytes _ => .bytes
  | .bits _ => .bits
  | .lane _ => .lane
  | .state _ => .state
  | .word _ => .word

/-- The commands of R53. The operand is not part of a command word: it arrives on DIN (R52). -/
inductive Instr where
  | sysNop
  | sysReset
  | sysStatus
  | cvB2bits
  | cvBits2b
  | cvLane2bits
  | cvBits2lane
  /-- `ir` is the round index of the IR field, 0..31 (R52). -/
  | kfRound (ir : Nat)
  | kfPermute
  | pdPad
  | spInit
  | spAbsorb
  | spSqueeze
  | spHash
  deriving DecidableEq, Repr

/-- The mnemonic of R53. -/
def Instr.mnemonic : Instr → String
  | .sysNop => "SYS.NOP"
  | .sysReset => "SYS.RESET"
  | .sysStatus => "SYS.STATUS"
  | .cvB2bits => "CV.B2BITS"
  | .cvBits2b => "CV.BITS2B"
  | .cvLane2bits => "CV.LANE2BITS"
  | .cvBits2lane => "CV.BITS2LANE"
  | .kfRound _ => "KF.ROUND"
  | .kfPermute => "KF.PERMUTE"
  | .pdPad => "PD.PAD"
  | .spInit => "SP.INIT"
  | .spAbsorb => "SP.ABSORB"
  | .spSqueeze => "SP.SQUEEZE"
  | .spHash => "SP.HASH"

/-- The DIN kind of each command (R53, column "operand"). SYS.RESET ignores its operand (R142). -/
def Instr.operandKind : Instr → Kind
  | .sysNop | .sysReset | .sysStatus | .spInit | .spSqueeze => .none
  | .cvB2bits | .spHash => .bytes
  | .cvBits2b | .cvBits2lane | .pdPad | .spAbsorb => .bits
  | .cvLane2bits => .lane
  | .kfRound _ | .kfPermute => .state

/-- The DOUT kind of each command (R53, column "result"). -/
def Instr.resultKind : Instr → Kind
  | .sysNop | .sysReset | .spInit | .spAbsorb => .none
  | .sysStatus => .word
  | .cvB2bits | .cvLane2bits | .pdPad => .bits
  | .cvBits2b | .spSqueeze | .spHash => .bytes
  | .cvBits2lane => .lane
  | .kfRound _ | .kfPermute => .state

end Sys2Proof
end

