-- ==== Sys2Proof/WellFormed.lean ====
section
/-! DEFINITION. Which instructions a command word can express (rules R51, R52 of 30_encoding.md). -/

namespace Sys2Proof

/-- The round index of KF.ROUND must fit the 5-bit IR field (R51, R52); the other commands have no field.
Values 24..31 are well formed ("legal to decode", R54) and raise ROUND_INDEX when executed. -/
def Instr.wf : Instr → Bool
  | .kfRound ir => decide (ir < 32)
  | .sysNop => true
  | .sysReset => true
  | .sysStatus => true
  | .cvB2bits => true
  | .cvBits2b => true
  | .cvLane2bits => true
  | .cvBits2lane => true
  | .kfPermute => true
  | .pdPad => true
  | .spInit => true
  | .spAbsorb => true
  | .spSqueeze => true
  | .spHash => true

end Sys2Proof
end

