-- ==== Sys2Proof/Decode.lean ====
section
/-! DEFINITION. The command word: its fields (rule R51), the decoder (R53, R54) and the encoder (R53) of
30_encoding.md. -/

namespace Sys2Proof

/-- `CMD[7:0]`, the operation code (R51). -/
def opcField (w : Word16) : BitVec 8 := w.extractLsb' 0 8

/-- `CMD[12:8]`, the round index (R51). -/
def irField (w : Word16) : BitVec 5 := w.extractLsb' 8 5

/-- `CMD[15:13]`, reserved, must be 0 (R51). -/
def rsvField (w : Word16) : BitVec 3 := w.extractLsb' 13 3

/-- Why a word is illegal (R54); each raises ILLEGAL_OPCODE. -/
inductive IllegalWord where
  /-- R54 (b): `RSV ≠ 0` -/
  | reservedBits
  /-- R54 (a): an OPC value not listed in R53 -/
  | unassignedOpcode
  /-- R54 (c): `IR ≠ 0` and `OPC ≠ 0x20` -/
  | roundIndexBits
  deriving DecidableEq, Repr

/-- One row of the opcode map (R53): the command whose word `w` has `w & mask = pattern`, given its IR field. -/
structure OpcodeRow where
  mask : Word16
  pattern : Word16
  build : Nat → Instr

/-- R53: "for 0x20 the IR field is free (mask `0xE0FF`, match `0x0020`), for the others the whole word is
fixed (mask `0xFFFF`, match `0x00 OPC`)". -/
def opcodeTable : List OpcodeRow :=
  [ ⟨0xFFFF, 0x0000, fun _ => .sysNop⟩,
    ⟨0xFFFF, 0x0001, fun _ => .sysReset⟩,
    ⟨0xFFFF, 0x0002, fun _ => .sysStatus⟩,
    ⟨0xFFFF, 0x0010, fun _ => .cvB2bits⟩,
    ⟨0xFFFF, 0x0011, fun _ => .cvBits2b⟩,
    ⟨0xFFFF, 0x0012, fun _ => .cvLane2bits⟩,
    ⟨0xFFFF, 0x0013, fun _ => .cvBits2lane⟩,
    ⟨0xE0FF, 0x0020, fun ir => .kfRound ir⟩,
    ⟨0xFFFF, 0x0021, fun _ => .kfPermute⟩,
    ⟨0xFFFF, 0x0030, fun _ => .pdPad⟩,
    ⟨0xFFFF, 0x0040, fun _ => .spInit⟩,
    ⟨0xFFFF, 0x0041, fun _ => .spAbsorb⟩,
    ⟨0xFFFF, 0x0042, fun _ => .spSqueeze⟩,
    ⟨0xFFFF, 0x0043, fun _ => .spHash⟩ ]

/-- Does the row select the word (R53)? -/
def OpcodeRow.selects (r : OpcodeRow) (w : Word16) : Bool := w &&& r.mask == r.pattern

/-- The OPC values R53 assigns. -/
def assignedOpcodes : List (BitVec 8) :=
  [0x00, 0x01, 0x02, 0x10, 0x11, 0x12, 0x13, 0x20, 0x21, 0x30, 0x40, 0x41, 0x42, 0x43]

/-- The name of the first ground of R54 that makes an unselected word illegal. -/
def illegalGround (w : Word16) : IllegalWord :=
  if rsvField w ≠ 0 then .reservedBits
  else if opcField w ∈ assignedOpcodes then .roundIndexBits
  else .unassignedOpcode

/-- The decoder, total on command words: the command R53 selects, or the ground of R54. -/
def decode (w : Word16) : Except IllegalWord Instr :=
  match opcodeTable.find? (fun r => r.selects w) with
  | some r => .ok (r.build (irField w).toNat)
  | none => .error (illegalGround w)

/-- The operation code of a command (R53). -/
def Instr.opcode : Instr → BitVec 8
  | .sysNop => 0x00
  | .sysReset => 0x01
  | .sysStatus => 0x02
  | .cvB2bits => 0x10
  | .cvBits2b => 0x11
  | .cvLane2bits => 0x12
  | .cvBits2lane => 0x13
  | .kfRound _ => 0x20
  | .kfPermute => 0x21
  | .pdPad => 0x30
  | .spInit => 0x40
  | .spAbsorb => 0x41
  | .spSqueeze => 0x42
  | .spHash => 0x43

/-- The IR field of a command: the round index of KF.ROUND, 0 in every other command (R51). -/
def Instr.irBits : Instr → BitVec 5
  | .kfRound ir => BitVec.ofNat 5 ir
  | .sysNop | .sysReset | .sysStatus | .cvB2bits | .cvBits2b | .cvLane2bits | .cvBits2lane
  | .kfPermute | .pdPad | .spInit | .spAbsorb | .spSqueeze | .spHash => 0

/-- The encoder: `RRRIIIIIOOOOOOOO` with RSV = 0 (R51). -/
def encode (i : Instr) : Word16 := (0 : BitVec 3) ++ i.irBits ++ i.opcode

/-- The instruction the decoder reads from a table word of `nbits` bits whose bits above `nbits` are 0.
A command has one 16-bit word (R50), presented as a word and not as bytes in a memory. -/
def decodeTableWord (nbits w : Nat) : Option Instr :=
  match decode (BitVec.ofNat 16 (w % 2 ^ nbits)) with
  | .ok i => some i
  | .error _ => none

end Sys2Proof
end

