-- ==== Sys2Proof/Machine/State.lean ====
section
/-! DEFINITION. The state of one engine (10_state.md), the reasons a step stops, and the machine after
reset (rules R26 and R170). -/

namespace Sys2Proof.Machine

/-- The values FSM takes (R17). The reserved values 5 and 6 are "never entered" and have no constructor. -/
inductive Fsm where
  /-- 0: ready for a command -/
  | idle
  /-- 1: SP.HASH is building the padded message in PBUF -/
  | pad
  /-- 2: absorbing block BLK: XOR into the rate bits -/
  | xor
  /-- 3: applying round RND of Keccak-f -/
  | perm
  /-- 4: reading the digest -/
  | squeeze
  /-- 7: halted after an error -/
  | fault
  deriving DecidableEq, Repr

/-- The 3-bit value of FSM (R17). -/
def Fsm.bits : Fsm → BitVec 3
  | .idle => 0
  | .pad => 1
  | .xor => 2
  | .perm => 3
  | .squeeze => 4
  | .fault => 7

/-- Is a micro-step sequence running? FSM is then none of the two values of a command boundary (R28). -/
def Fsm.busy : Fsm → Bool
  | .idle | .fault => false
  | .pad | .xor | .perm | .squeeze => true

/-- The error codes held in ERR (R150). The reserved codes 8..15 are "never raised" and have no constructor. -/
inductive ErrCode where
  | none | blockLength | bitCount | illegalOpcode | roundIndex | operandKind | laneLength | msgLength
  deriving DecidableEq, Repr

/-- The 4-bit value of ERR (R150). -/
def ErrCode.bits : ErrCode → BitVec 4
  | .none => 0
  | .blockLength => 1
  | .bitCount => 2
  | .illegalOpcode => 3
  | .roundIndex => 4
  | .operandKind => 5
  | .laneLength => 6
  | .msgLength => 7

/-- A command as the host presents it: one command word and one data operand (R30, R50). -/
structure Command where
  word : Word16
  din : Data
  deriving DecidableEq, Repr

/-- A response as the host gets it: one response word RESP and one data result on DOUT (R55). -/
structure Response where
  word : Word16
  dout : Data
  deriving DecidableEq, Repr

/-- What the host can do to the engine (R177). -/
inductive HostMove where
  /-- present a command and wait for its response (R174) -/
  | command (c : Command)
  /-- assert the power-on reset (R172) -/
  | powerOnReset
  deriving DecidableEq, Repr

/-- The state of one engine. The two ROMs are constants (`rcRom`, `rotRom`), since no step changes them (R24, R25). -/
structure State where
  /-- STATE, 1600 bits (R10) -/
  state : KState
  /-- FSM, 3 bits (R17) -/
  fsm : Fsm
  /-- RND, 5 bits (R18) -/
  rnd : BitVec 5
  /-- BLK, an unbounded natural in the model (R19) -/
  blk : Nat
  /-- NBLK, an unbounded natural in the model (R19) -/
  nblk : Nat
  /-- SQZ, 1 bit (R29) -/
  sqz : Bool
  /-- PBUF, the block buffer (R20) -/
  pbuf : Bits
  /-- ERR, 4 bits (R21) -/
  err : ErrCode
  /-- CMD, the word of the command being executed (R50); 0 at a command boundary -/
  cmd : Word16
  /-- DIN as captured at acceptance (R30); no data at a command boundary -/
  din : Data
  /-- RESP and DOUT of the last answered command (R30, R55); none while a command runs and after a power-on reset -/
  resp : Option Response
  /-- the model's own field: the host's moves still to come, the next one first (R174, R177) -/
  inbox : List HostMove
  /-- the parameters of this build (R8) -/
  cfg : Config
  deriving DecidableEq, Repr

/-- Why the machine stops with a fault. -/
inductive Fault where
  /-- Raised by `microStep` alone: the registers hold a combination for which the transition table of R125 has no
  row. Safe: no state that meets `EngineInv` is such a state, and the engine never holds one (R17, R18, R19). -/
  | noTransition
  deriving DecidableEq, Repr

/-- Why the model gives no meaning. -/
inductive Refusal where
  /-- Raised by an arm of `exec` whose instruction has no meaning yet (none in this model). Safe. -/
  | notModelled (mnemonic : String)
  /-- Raised by `exec` alone, when asked to run a command while a micro-step sequence runs. R174: the engine does not
  accept such a command, "it is held at the interface"; `step` holds it and never asks. Safe. -/
  | commandInProgress
  /-- Raised by `Platform.stepEngine` alone, for an engine number the platform does not have (R161). Safe. -/
  | noSuchEngine
  deriving DecidableEq, Repr

/-- The three outcomes of a command or of a step. -/
abbrev Result := Host.Outcome State Fault Refusal

/-- The machine after a power-on reset, in a build with parameters `cfg` (R26, R170). The channels hold nothing and the
host has no move to come: DESIGN CHOICE (log 2, log 5). -/
def State.resetOf (cfg : Config) : State :=
  { state := 0
    fsm := .idle
    rnd := 0
    blk := 0
    nblk := 0
    sqz := false
    pbuf := []
    err := .none
    cmd := 0
    din := .none
    resp := none
    inbox := []
    cfg := cfg }

/-- The machine right after reset, in the model's default build (R8, R26, R170). -/
def State.reset : State := State.resetOf Config.unbounded

end Sys2Proof.Machine
end

