-- ==== Sys2Proof/Machine/Flags.lean ====
section
/-! DEFINITION. The words the host reads. The engine has no flags (rule R22 of 10_state.md): "ERR and FSM are the
only status the host can observe", through the response word (R55) and the status word (R23). -/

namespace Sys2Proof.Machine

/-- The ST field of the response word (R55). -/
inductive RespStatus where
  | ok | usage | illegal | faulted
  deriving DecidableEq, Repr

/-- The 2-bit value of ST (R55). -/
def RespStatus.bits : RespStatus → BitVec 2
  | .ok => 0
  | .usage => 1
  | .illegal => 2
  | .faulted => 3

/-- The class of an error code, as ST of the response that raises it (R150). NONE is never raised. -/
def ErrCode.status : ErrCode → RespStatus
  | .none => .ok
  | .blockLength | .bitCount | .laneLength | .msgLength => .usage
  | .illegalOpcode | .roundIndex | .operandKind => .illegal

/-- The response word `OPCE[15:8] CODE[7:4] 0[3:2] ST[1:0]` (R55). -/
def respWord (st : RespStatus) (code : BitVec 4) (opce : BitVec 8) : Word16 :=
  opce ++ code ++ (0 : BitVec 2) ++ st.bits

/-- The status word `zext_16(ERR << 4 | FSM)` (R23, R141). -/
def statusWord (err : ErrCode) (fsm : Fsm) : Word16 :=
  (err.bits.setWidth 16 <<< 4) ||| fsm.bits.setWidth 16

end Sys2Proof.Machine
end

