-- ==== Sys2Proof/Machine/Operands.lean ====
section
/-! DEFINITION. Bit and byte order: the bit sequence of a value, the value of a bit sequence, and the four functions
of rule R70 (40_conversion.md), with the bit orders of R34 and R35 (20_memory.md). -/

namespace Sys2Proof.Machine

/-- `sum over k of s[k] * 2^k`: the number a bit sequence stands for, first bit least significant (R34, R35). -/
def bitsVal : Bits → Nat
  | [] => 0
  | b :: s => b.toNat + 2 * bitsVal s

/-- The `n`-bit value of a bit sequence, bit `k` of weight `2^k`; a sequence of `n` bits fills it exactly. -/
def ofBits (n : Nat) (s : Bits) : BitVec n := BitVec.ofNat n (bitsVal s)

/-- The bits of a value, least significant first (R34, R35). -/
def toBits {n : Nat} (v : BitVec n) : Bits := (List.range n).map v.getLsbD

/-- `s[a ..< a + n]` (R9). -/
def slice (s : Bits) (a n : Nat) : Bits := (s.drop a).take n

/-- R70: `s[8*j + k] := m[j][k]`. -/
def bytesToBits (m : List Byte) : Bits := m.flatMap toBits

/-- R70: `m[j] := sum over k in 0..7 of s[8*j + k] * 2^k`, for `|s|` a multiple of 8. -/
def bitsToBytes (s : Bits) : List Byte :=
  (List.range (s.length / 8)).map fun j => ofBits 8 (slice s (8 * j) 8)

/-- R70: `s[z] := v[z]`. -/
def bitsFromLane (v : Lane) : Bits := toBits v

/-- R70: `sum over z in 0..63 of s[z] * 2^z`, for `|s| = 64`. -/
def laneFromBits (s : Bits) : Lane := ofBits 64 s

/-- The operand a bare command word is presented with when a command is placed by word alone: the value of the kind the
command takes (R53) in which every bit is 0 and no more bits stand than the command needs (log 9). -/
def zeroOperand : Instr → Data
  | .sysNop | .sysReset | .sysStatus | .spInit | .spSqueeze => .none
  | .cvB2bits | .spHash => .bytes []
  | .cvBits2b | .pdPad => .bits []
  | .cvBits2lane => .bits (List.replicate Param.laneBits false)
  | .spAbsorb => .bits (List.replicate Param.rate false)
  | .cvLane2bits => .lane 0
  | .kfRound _ | .kfPermute => .state 0

end Sys2Proof.Machine
end

