-- ==== Sys2Proof/Machine/Ops.lean ====
section
/-! DEFINITION. The operations the meanings share: answering, raising an error (the engine's only exception entry,
rule R151 of 60_exceptions.md), leaving FAULT (reset, R170 of 70_reset_and_hazards.md), reading DIN with its kind
(R31), the FAULT check (R152) and accepting a command (R30). -/

namespace Sys2Proof.Machine

/-- Answer the command being executed (R55): RESP and DOUT go out and the engine holds no command. OPCE is `CMD[7:0]`. -/
def State.respond (s : State) (st : RespStatus) (code : BitVec 4) (dout : Data) : State :=
  { s with
    resp := some { word := respWord st code (opcField s.cmd), dout := dout }
    cmd := 0
    din := .none }

/-- The response of a command that executed: ST = OK, CODE = 0 (R55). -/
def State.ok (s : State) (dout : Data) : State := s.respond .ok 0 dout

/-- TAKING AN EXCEPTION: `raise UsageError(code)` and `raise Illegal(code)` (R151). The class follows from the code
(R150). "STATE, RND, BLK, NBLK, SQZ, PBUF are not written". -/
def State.raise (s : State) (code : ErrCode) : State :=
  { s with err := code, fsm := .fault }.respond code.status code.bits .none

/-- The answer in FAULT to a command that is not executed (R152): ST = FAULTED, CODE = ERR, no data, no register changed. -/
def State.answerFaulted (s : State) : State := s.respond .faulted s.err.bits .none

/-- THE RETURN FROM AN EXCEPTION is reset alone (R156): every register to its value of R26 (R170). The ROMs, the
build's parameters and the host's moves are not registers. -/
def State.resetRegs (s : State) : State :=
  { s with
    state := 0
    fsm := .idle
    rnd := 0
    blk := 0
    nblk := 0
    sqz := false
    pbuf := []
    err := .none }

/-- The power-on reset (R170, R172): every register to its value of R26; a command that was running is abandoned and
gets no response. `rest` is what the host does afterwards. -/
def State.powerOn (s : State) (rest : List HostMove) : State :=
  { State.resetOf s.cfg with inbox := rest }

/-- STATE is written as a whole (R14: "Every write replaces all 1600 bits at once"). -/
def State.setState (s : State) (S : KState) : State := { s with state := S }

/-- Accept a command (R30): CMD and DIN are captured, the previous response is over. `rest` is what the host does next. -/
def State.accept (s : State) (c : Command) (rest : List HostMove) : State :=
  { s with cmd := c.word, din := c.din, resp := none, inbox := rest }

/-- The first check of R153, for a command that does not execute in FAULT: in IDLE go on, in FAULT answer FAULTED.
A command is accepted only at a command boundary (R174; log 8). -/
def State.inIdle (s : State) (go : Result) : Result :=
  match s.fsm with
  | .idle => go
  | .fault => .next s.answerFaulted
  | .pad | .xor | .perm | .squeeze => .refused .commandInProgress

/-- The fourth check of R153 for a command that takes no operand: OPERAND_KIND unless DIN is of kind `none`. -/
def State.takeNone (s : State) (go : Result) : Result :=
  match s.din with
  | .none => go
  | .bytes _ | .bits _ | .lane _ | .state _ | .word _ => .next (s.raise .operandKind)

/-- `DinRead()` of kind `bytes` (R30, R153). -/
def State.takeBytes (s : State) (go : List Byte → Result) : Result :=
  match s.din with
  | .bytes m => go m
  | .none | .bits _ | .lane _ | .state _ | .word _ => .next (s.raise .operandKind)

/-- `DinRead()` of kind `bits` (R30, R153). -/
def State.takeBits (s : State) (go : Bits → Result) : Result :=
  match s.din with
  | .bits b => go b
  | .none | .bytes _ | .lane _ | .state _ | .word _ => .next (s.raise .operandKind)

/-- `DinRead()` of kind `lane` (R30, R153). -/
def State.takeLane (s : State) (go : Lane → Result) : Result :=
  match s.din with
  | .lane v => go v
  | .none | .bytes _ | .bits _ | .state _ | .word _ => .next (s.raise .operandKind)

/-- `DinRead()` of kind `state` (R30, R153). -/
def State.takeState (s : State) (go : KState → Result) : Result :=
  match s.din with
  | .state t => go t
  | .none | .bytes _ | .bits _ | .lane _ | .word _ => .next (s.raise .operandKind)

/-- An operand check of R153 point 5: the named error unless the condition holds. -/
def State.require (s : State) (condition : Bool) (code : ErrCode) (go : Result) : Result :=
  if condition then go else .next (s.raise code)

/-- An illegal word (R54, R153): FAULTED in FAULT, else ILLEGAL_OPCODE. -/
def State.illegalWord (s : State) : Result := s.inIdle (.next (s.raise .illegalOpcode))

/-- No micro-step sequence: the state between commands, from which the next command is accepted (R28). A sequence in
progress is dropped. Used to place a command so that the very next step accepts it (log 9). -/
def State.atBoundary (s : State) : State :=
  if s.fsm.busy then
    { s with fsm := .idle, rnd := 0, blk := 0, nblk := 0, sqz := false, pbuf := [], cmd := 0, din := .none }
  else s

/-- The command with word `w` and the zero operand of its kind; an illegal word comes with no data (log 9). -/
def bareCommand (w : Word16) : Command :=
  { word := w
    din := match decode w with
      | .ok i => zeroOperand i
      | .error _ => .none }

end Sys2Proof.Machine
end

