-- ==== Sys2Proof/Machine/Converter.lean ====
section
/-! DEFINITION. The converter's commands (rules R71 to R74 of 40_conversion.md). -/

namespace Sys2Proof.Machine

/-- CV.B2BITS (R71). -/
def execCvB2bits (s : State) : Result :=
  s.inIdle <| s.takeBytes fun m => .next (s.ok (.bits (bytesToBits m)))

/-- CV.BITS2B (R72): BIT_COUNT unless `|s|` is a multiple of 8. -/
def execCvBits2b (s : State) : Result :=
  s.inIdle <| s.takeBits fun b =>
    s.require (b.length % 8 == 0) .bitCount <| .next (s.ok (.bytes (bitsToBytes b)))

/-- CV.LANE2BITS (R73). -/
def execCvLane2bits (s : State) : Result :=
  s.inIdle <| s.takeLane fun v => .next (s.ok (.bits (bitsFromLane v)))

/-- CV.BITS2LANE (R74): LANE_LENGTH unless `|s| = 64`. -/
def execCvBits2lane (s : State) : Result :=
  s.inIdle <| s.takeBits fun b =>
    s.require (b.length == 64) .laneLength <| .next (s.ok (.lane (laneFromBits b)))

end Sys2Proof.Machine
end

