-- ==== Sys2Proof/Machine/Padding.lean ====
section
/-! DEFINITION. The padding unit (rules R110, R111 and R115 of 42_padding.md). -/

namespace Sys2Proof.Machine

/-- DOMAIN, the domain-separator byte of the original Keccak (R7, R110). -/
def domainByte : Byte := 0x01

/-- `k`, the blocks of the padded message of an `n`-bit message (R110, R111; 90_conflicts.md C2). -/
def paddedBlocks (n : Nat) : Nat := (n + 8 + 1087) / 1088

/-- `P[i] := P[i] or b`. -/
def orBit (P : Bits) (i : Nat) (b : Bool) : Bits := P.modify i (· || b)

/-- `pad(s)`, for `|s|` a multiple of 8 (R110): the message in a zeroed buffer, the domain byte ORed in right after it,
the closing bit ORed into the last position. -/
def pad (s : Bits) : Bits :=
  let n := s.length
  let plen := 1088 * paddedBlocks n
  let buffer := s ++ List.replicate (plen - n) false
  let withDomain := (List.range 8).foldl (fun P j => orBit P (n + j) (domainByte.getLsbD j)) buffer
  orBit withDomain (plen - 1) true

/-- PD.PAD (R115): BIT_COUNT unless `|s|` is a multiple of 8 (R116). -/
def execPdPad (s : State) : Result :=
  s.inIdle <| s.takeBits fun b =>
    s.require (b.length % 8 == 0) .bitCount <| .next (s.ok (.bits (pad b)))

end Sys2Proof.Machine
end

