-- ==== Sys2Proof/Machine/Roms.lean ====
section
/-! DEFINITION. The two read-only memories: their contents (rules R80 and R82 of 41_permutation.md), and the two
generators that re-derive them (R81, R83). -/

namespace Sys2Proof.Machine

/-- ROT_ROM by lane index `x + 5y` (R80). -/
def rotRom : List Nat :=
  [0, 1, 62, 28, 27, 36, 44, 6, 55, 20, 3, 10, 43, 25, 39, 41, 45, 15, 21, 8, 18, 2, 61, 56, 14]

/-- The number of a lane, `x + 5y` (R11, R12). -/
def laneIndex (x y : Fin 5) : Fin 25 := ⟨x.val + 5 * y.val, by omega⟩

/-- `r[x,y]` (R80). -/
def rotOffset (x y : Fin 5) : Nat := rotRom.get (laneIndex x y)

/-- The rows of the table of R82 as it stands there: row `i` holds `RC[i]` and, beside it, `RC[i + 12]`. -/
def rcRows : List (Lane × Lane) :=
  [ (0x0000000000000001, 0x000000008000808B),
    (0x0000000000008082, 0x800000000000008B),
    (0x800000000000808A, 0x8000000000008089),
    (0x8000000080008000, 0x8000000000008003),
    (0x000000000000808B, 0x8000000000008002),
    (0x0000000080000001, 0x8000000000000080),
    (0x8000000080008081, 0x000000000000800A),
    (0x8000000000008009, 0x800000008000000A),
    (0x000000000000008A, 0x8000000080008081),
    (0x0000000000000088, 0x8000000000008080),
    (0x0000000080008009, 0x0000000080000001),
    (0x000000008000000A, 0x8000000080008008) ]

/-- RC_ROM (R82): the first column of the rows, then the second. -/
def rcRom : List Lane := rcRows.map (·.1) ++ rcRows.map (·.2)

/-- `RC[ir]`, `0 ≤ ir ≤ 23` (R82). -/
def roundConstant (ir : Fin 24) : Lane := rcRom.get ir

/-- R81: the walk of 24 steps from `(x, y)`, step `t` giving `r[x,y] = ((t+1)(t+2)/2) mod 64`, as a list of
(x, y, offset). -/
def rotWalkFrom (x y : Fin 5) (t : Nat) : Nat → List (Fin 5 × Fin 5 × Nat)
  | 0 => []
  | steps + 1 => (x, y, (t + 1) * (t + 2) / 2 % 64) :: rotWalkFrom y (2 * x + 3 * y) (t + 1) steps

/-- R81: the walk starts at (1, 0) and takes t = 0..23. -/
def rotWalk : List (Fin 5 × Fin 5 × Nat) := rotWalkFrom 1 0 0 24

/-- R83: one step of the shift register, `R := [0] ++ R`, then `R[0], R[4], R[5], R[6]` xor `R[8]`, then
`R := R[0..7]`. -/
def lfsrStep (r : BitVec 8) : BitVec 8 :=
  (r <<< 1) ^^^ (if r.getLsbD 7 then 0x71 else 0x00)

/-- R83: the register after `n` steps from `[1,0,0,0,0,0,0,0]`; `R[k]` is bit `k`. -/
def lfsrAfter : Nat → BitVec 8
  | 0 => 0x01
  | n + 1 => lfsrStep (lfsrAfter n)

/-- R83: `rc(t)`, the output bit. -/
def lfsrOutput (t : Nat) : Bool := if t % 255 = 0 then true else (lfsrAfter (t % 255)).getLsbD 0

/-- R83: `sum over j in 0..6 of rc(j + 7*ir) * 2^(2^j - 1)`. -/
def lfsrConstant (ir : Nat) : Nat :=
  ((List.range 7).map fun j => (lfsrOutput (j + 7 * ir)).toNat * 2 ^ (2 ^ j - 1)).sum

end Sys2Proof.Machine
end

