-- ==== Sys2Proof/Machine/Permutation.lean ====
section
/-! DEFINITION. Keccak-f[1600]: the lanes of a state (rule R11 of 10_state.md), the five step mappings (R84 to R88 of
41_permutation.md), the round function (R89), the permutation (R90), and the commands KF.ROUND (R92) and KF.PERMUTE
(R93). Indices `x`, `y` are in `Fin 5`, whose arithmetic is mod 5. -/

namespace Sys2Proof.Machine

/-- `A[x,y]`: lane `x + 5y`, bits `64(x + 5y) ..< 64(x + 5y) + 64` of the state (R11). -/
def lane (S : KState) (x y : Fin 5) : Lane := S.extractLsb' (64 * (x.val + 5 * y.val)) 64

/-- `a[x,y,z] = A[x,y][z]` (R9, R11). -/
def stateBit (S : KState) (x y : Fin 5) (z : Nat) : Bool := (lane S x y).getLsbD z

/-- The number whose 64-bit digits are the lanes, the first lane least significant (R11). -/
def lanesVal : List Lane → Nat
  | [] => 0
  | v :: vs => v.toNat + 2 ^ 64 * lanesVal vs

/-- The grid positions in the order of the lane index `x + 5y` (R12). -/
def grid : List (Fin 5 × Fin 5) :=
  (List.finRange 5).flatMap fun y => (List.finRange 5).map fun x => (x, y)

/-- The state whose lane (x, y) is `f x y` (R11). Irreducible, so that no proof step evaluates a 1600-bit number by accident;
the kernel evaluates it as any other definition. -/
@[irreducible] def ofLanes (f : Fin 5 → Fin 5 → Lane) : KState :=
  BitVec.ofNat 1600 (lanesVal (grid.map fun p => f p.1 p.2))

/-- `C[x]` of θ: the parity of column `x` (R84). -/
def columnParity (A : KState) (x : Fin 5) : Lane :=
  lane A x 0 ^^^ lane A x 1 ^^^ lane A x 2 ^^^ lane A x 3 ^^^ lane A x 4

/-- θ (R84): `A'[x,y] := A[x,y] xor C[x+4] xor ROTL64(C[x+1], 1)`. -/
def theta (A : KState) : KState :=
  ofLanes fun x y => lane A x y ^^^ (columnParity A (x + 4) ^^^ (columnParity A (x + 1)).rotateLeft 1)

/-- ρ (R85): `A'[x,y] := ROTL64(A[x,y], r[x,y])`. -/
def rho (A : KState) : KState := ofLanes fun x y => (lane A x y).rotateLeft (rotOffset x y)

/-- π (R86), read from the destination: `A'[X,Y] = A[X + 3Y, X]`. -/
def pi (A : KState) : KState := ofLanes fun X Y => lane A (X + 3 * Y) X

/-- χ (R87): `A'[x,y] := A[x,y] xor ((~A[x+1,y]) and A[x+2,y])`. -/
def chi (A : KState) : KState :=
  ofLanes fun x y => lane A x y ^^^ (~~~(lane A (x + 1) y) &&& lane A (x + 2) y)

/-- ι (R88): `A'[0,0] := A[0,0] xor RC[ir]`, all other lanes unchanged. -/
def iota (A : KState) (ir : Fin 24) : KState :=
  ofLanes fun x y => if x = 0 ∧ y = 0 then lane A x y ^^^ roundConstant ir else lane A x y

/-- The round function `Rnd(A, ir)`, `0 ≤ ir ≤ 23` (R89). -/
def roundFunction (A : KState) (ir : Fin 24) : KState := iota (chi (pi (rho (theta A)))) ir

/-- Keccak-f[1600] (R90): rounds 0..23 in order. Irreducible for the reason of `ofLanes`. -/
@[irreducible] def keccakF (A : KState) : KState := (List.finRange 24).foldl roundFunction A

/-- KF.ROUND (R92): ROUND_INDEX is checked before the operand kind (R153). -/
def execKfRound (ir : Nat) (s : State) : Result :=
  s.inIdle <|
    if h : ir < 24 then s.takeState fun t => .next (s.ok (.state (roundFunction t ⟨ir, h⟩)))
    else .next (s.raise .roundIndex)

/-- KF.PERMUTE (R93). -/
def execKfPermute (s : State) : Result :=
  s.inIdle <| s.takeState fun t => .next (s.ok (.state (keccakF t)))

end Sys2Proof.Machine
end

