-- ==== Sys2Proof/Machine/Sponge.lean ====
section
/-! DEFINITION. The sponge unit: the functions of rule R120 (43_sponge.md) and its commands as atomic effects (R121 to
R124). The micro-step view of SP.ABSORB and SP.HASH is Machine/Sequencer.lean. -/

namespace Sys2Proof.Machine

/-- XOR of a 1088-bit block into `S[0 ..< 1088]`; the capacity bits are untouched (R120, R125). -/
def xorRate (S : KState) (blk : Bits) : KState := S ^^^ (ofBits 1088 blk).setWidth 1600

/-- `absorbBlock(S, blk)`, `|blk| = 1088` (R120). -/
def absorbBlock (S : KState) (blk : Bits) : KState := keccakF (xorRate S blk)

/-- `squeezeDigest(S)`: the first 256 bits as 32 bytes (R120, R37). -/
def squeezeDigest (S : KState) : List Byte := bitsToBytes (slice (toBits S) 0 256)

/-- Block `j` of a padded message, `P[1088·j ..< 1088·j + 1088]` (R120). -/
def blockAt (P : Bits) (j : Nat) : Bits := slice P (1088 * j) 1088

/-- Absorb the blocks `0 … |P|/1088 - 1` of `P` in order (R120, R127). -/
def absorbAll (S : KState) (P : Bits) : KState :=
  (List.range (P.length / 1088)).foldl (fun S j => absorbBlock S (blockAt P j)) S

/-- The final state of `keccak256(m)`: every block of the padded message, from `0^1600` (R120). -/
def hashState (m : List Byte) : KState := absorbAll 0 (pad (bytesToBits m))

/-- The digest of `keccak256(m)` (R120). -/
def keccak256 (m : List Byte) : List Byte := squeezeDigest (hashState m)

/-- SP.INIT (R121). -/
def execSpInit (s : State) : Result :=
  s.inIdle <| s.takeNone <| .next ((s.setState 0).ok .none)

/-- SP.ABSORB (R122): BLOCK_LENGTH unless `|blk| = 1088`. -/
def execSpAbsorb (s : State) : Result :=
  s.inIdle <| s.takeBits fun blk =>
    s.require (blk.length == 1088) .blockLength <|
      .next ((s.setState (absorbBlock s.state blk)).ok .none)

/-- SP.SQUEEZE (R123). -/
def execSpSqueeze (s : State) : Result :=
  s.inIdle <| s.takeNone <| .next (s.ok (.bytes (squeezeDigest s.state)))

/-- SP.HASH (R124): MSG_LENGTH in a bounded build, else the hash, starting from `0^1600`. -/
def execSpHash (s : State) : Result :=
  s.inIdle <| s.takeBytes fun m =>
    s.require (!s.cfg.exceeds m.length) .msgLength <|
      .next ((s.setState (hashState m)).ok (.bytes (keccak256 m)))

end Sys2Proof.Machine
end

