-- ==== Sys2Proof/Machine/System.lean ====
section
/-! DEFINITION. The system commands (rules R140 to R142 of 44_system.md). -/

namespace Sys2Proof.Machine

/-- SYS.NOP (R140). -/
def execSysNop (s : State) : Result := s.inIdle <| s.takeNone <| .next (s.ok .none)

/-- SYS.RESET (R142): any operand is ignored; it executes in IDLE and in FAULT. While a sequence runs it cannot arrive
(R172, R174; log 8). -/
def execSysReset (s : State) : Result :=
  match s.fsm with
  | .idle | .fault => .next (s.resetRegs.ok .none)
  | .pad | .xor | .perm | .squeeze => .refused .commandInProgress

/-- SYS.STATUS (R141): it executes in IDLE and in FAULT; in FAULT the operand is ignored. -/
def execSysStatus (s : State) : Result :=
  match s.fsm with
  | .idle => s.takeNone <| .next (s.ok (.word (statusWord s.err s.fsm)))
  | .fault => .next (s.ok (.word (statusWord s.err s.fsm)))
  | .pad | .xor | .perm | .squeeze => .refused .commandInProgress

end Sys2Proof.Machine
end

