-- ==== Sys2Proof/Machine/Dispatch.lean ====
section
/-! DEFINITION. From a command to its meaning, one arm per constructor of Instr (rule R53 of 30_encoding.md). -/

namespace Sys2Proof.Machine

def exec (i : Instr) (s : State) : Host.Outcome State Fault Refusal :=
  match i with
  | .sysNop => Sys2Proof.Machine.execSysNop s
  | .sysReset => Sys2Proof.Machine.execSysReset s
  | .sysStatus => Sys2Proof.Machine.execSysStatus s
  | .cvB2bits => Sys2Proof.Machine.execCvB2bits s
  | .cvBits2b => Sys2Proof.Machine.execCvBits2b s
  | .cvLane2bits => Sys2Proof.Machine.execCvLane2bits s
  | .cvBits2lane => Sys2Proof.Machine.execCvBits2lane s
  | .kfRound ir => Sys2Proof.Machine.execKfRound ir s
  | .kfPermute => Sys2Proof.Machine.execKfPermute s
  | .pdPad => Sys2Proof.Machine.execPdPad s
  | .spInit => Sys2Proof.Machine.execSpInit s
  | .spAbsorb => Sys2Proof.Machine.execSpAbsorb s
  | .spSqueeze => Sys2Proof.Machine.execSpSqueeze s
  | .spHash => Sys2Proof.Machine.execSpHash s

end Sys2Proof.Machine
end

