-- ==== Sys2Proof/Machine/Sequencer.lean ====
section
/-! DEFINITION. The sponge state machine (rules R125 to R128 of 43_sponge.md): the acceptance rows and one micro-step. -/

namespace Sys2Proof.Machine

/-- R125, IDLE with `SP.ABSORB` accepted: `PBUF <- blk, NBLK <- 1, BLK <- 0, SQZ <- 0`, to XOR. -/
def State.beginAbsorb (s : State) (blk : Bits) : State :=
  { s with fsm := .xor, pbuf := blk, nblk := 1, blk := 0, sqz := false }

/-- R125, IDLE with `SP.HASH` accepted: to PAD. -/
def State.beginHash (s : State) : State := { s with fsm := .pad }

/-- R125, PAD: the padded message of the captured operand into PBUF, STATE zeroed, to XOR. -/
def State.padStep (s : State) (m : List Byte) : State :=
  let P := pad (bytesToBits m)
  { s with fsm := .xor, pbuf := P, nblk := P.length / 1088, blk := 0, sqz := true, state := 0 }

/-- R125, XOR: block BLK into the rate bits, `RND <- 0`, to PERM. -/
def State.xorStep (s : State) : State :=
  { s with fsm := .perm, state := xorRate s.state (blockAt s.pbuf s.blk), rnd := 0 }

/-- R125, PERM with `RND < 23`: `RND <- RND + 1`, to PERM. `S` is `Rnd(STATE, RND)`. -/
def State.permNextRound (s : State) (S : KState) : State := { s with state := S, rnd := s.rnd + 1 }

/-- R125, PERM with `RND = 23`, `BLK + 1 < NBLK`: `RND <- 0, BLK <- BLK + 1`, to XOR. -/
def State.permNextBlock (s : State) (S : KState) : State :=
  { s with fsm := .xor, state := S, rnd := 0, blk := s.blk + 1 }

/-- R125, PERM with `RND = 23`, `BLK + 1 = NBLK`, `SQZ = 1`: `RND <- 0, BLK <- 0`, to SQUEEZE. -/
def State.permToSqueeze (s : State) (S : KState) : State :=
  { s with fsm := .squeeze, state := S, rnd := 0, blk := 0 }

/-- R125, PERM with `RND = 23`, `BLK + 1 = NBLK`, `SQZ = 0`: the end of SP.ABSORB, to IDLE with response OK. -/
def State.permFinish (s : State) (S : KState) : State :=
  { s with fsm := .idle, state := S, rnd := 0, blk := 0, nblk := 0, pbuf := [] }.ok .none

/-- R125, SQUEEZE: the digest out, the end of SP.HASH, to IDLE with response OK. -/
def State.squeezeStep (s : State) : State :=
  { s with fsm := .idle, nblk := 0, sqz := false, pbuf := [] }.ok (.bytes (squeezeDigest s.state))

/-- R125, PERM: which of its four rows applies. No row: RND past 23, or BLK past the last block. -/
def permStep (s : State) : Result :=
  if h : s.rnd.toNat < 24 then
    let S := roundFunction s.state ⟨s.rnd.toNat, h⟩
    if s.rnd.toNat < 23 then .next (s.permNextRound S)
    else if s.blk + 1 < s.nblk then .next (s.permNextBlock S)
    else if s.blk + 1 = s.nblk then .next (if s.sqz then s.permToSqueeze S else s.permFinish S)
    else .fault .noTransition
  else .fault .noTransition

/-- One micro-step of the sponge state machine: the row of R125 for the current FSM. Where no row applies the machine is
stuck: `noTransition` (log 7). -/
def microStep (s : State) : Result :=
  match s.fsm with
  | .pad =>
    match s.din with
    | .bytes m => .next (s.padStep m)
    | .none | .bits _ | .lane _ | .state _ | .word _ => .fault .noTransition
  | .xor =>
    if (blockAt s.pbuf s.blk).length = 1088 then .next s.xorStep else .fault .noTransition
  | .perm => permStep s
  | .squeeze => .next s.squeezeStep
  | .idle | .fault => .fault .noTransition

/-- The micro-steps of SP.ABSORB (R128): acceptance, one XOR, 24 PERM. -/
def absorbMicroSteps : Nat := 1 + 1 + 24

/-- The micro-steps of SP.HASH for a message of `len` bytes (R128), `k = len div 136 + 1` blocks (R111). -/
def hashMicroSteps (len : Nat) : Nat := 1 + 1 + (len / 136 + 1) * (1 + 24) + 1

end Sys2Proof.Machine
end

