-- ==== Sys2Proof/Machine/RunCommand.lean ====
section
/-! DEFINITION. What becomes of a command just accepted, in the two views rule R128 (43_sponge.md) allows: run whole
(R39), or, for SP.ABSORB and SP.HASH, started as a micro-step sequence (R125). -/

namespace Sys2Proof.Machine

/-- The atomic view: what R153 says of the command word, then the command's meaning. -/
def runCommand (s : State) : Result :=
  match decode s.cmd with
  | .ok i => exec i s
  | .error _ => s.illegalWord

/-- The micro-step view of an accepted command: where SP.ABSORB or SP.HASH passes every check of R153 it takes its row
"IDLE, accepted" of R125; every other command, and every error, is one step ("No other command has micro-steps", R128). -/
def beginCommand (s : State) : Result :=
  match decode s.cmd, s.fsm, s.din with
  | .ok .spAbsorb, .idle, .bits blk => if blk.length = 1088 then .next (s.beginAbsorb blk) else runCommand s
  | .ok .spHash, .idle, .bytes m => if s.cfg.exceeds m.length then runCommand s else .next s.beginHash
  | _, _, _ => runCommand s

end Sys2Proof.Machine
end

