-- ==== Sys2Proof/Machine/Step.lean ====
section
/-! DEFINITION. One step of the engine: a power-on reset, a micro-step of a running sequence, one whole command, or
nothing (rules R39, R43, R125, R163, R172, R174). -/

namespace Sys2Proof.Machine

/-- One step. A power-on reset acts at any time (R172). While a sequence runs the engine takes its next micro-step and a
command is held (R125, R174). Between commands the engine accepts the next command and runs it whole (R39), or, with
none presented, holds all its state (R163). -/
def step (s : State) : Host.Outcome State Fault Refusal :=
  match s.inbox with
  | .powerOnReset :: rest => .next (s.powerOn rest)
  | .command c :: rest => if s.fsm.busy then microStep s else runCommand (s.accept c rest)
  | [] => if s.fsm.busy then microStep s else .next s

/-- `s` with the command word `w` (bits above `nbits` zero) as the next command the engine accepts, with the zero operand
of its kind (log 9). -/
def State.withFetchWord (s : State) (nbits w : Nat) : State :=
  { s.atBoundary with inbox := .command (bareCommand (BitVec.ofNat 16 (w % 2 ^ nbits))) :: s.inbox }

end Sys2Proof.Machine
end

