-- ==== Sys2Proof/Machine/Platform.lean ====
section
/-! DEFINITION. A platform of several engines (rule R161 of 60_exceptions.md; D21, D23): each engine has its own state,
they share nothing but the ROMs, which are constants. -/

namespace Sys2Proof.Machine

/-- A platform: its engines, NENGINE of them, and where it maps their ports, if it does (R41: no rule depends on it). -/
structure Platform where
  engines : List State
  engineBase : Option Nat
  deriving DecidableEq, Repr

/-- NENGINE ≥ 1 (R161). -/
def Platform.wf (p : Platform) : Bool := decide (1 ≤ p.engines.length)

/-- Engine `k` takes one step (R161). -/
def Platform.stepEngine (p : Platform) (k : Nat) : Host.Outcome Platform Fault Refusal :=
  match p.engines[k]? with
  | none => .refused .noSuchEngine
  | some s =>
    match step s with
    | .next t => .next { p with engines := p.engines.set k t }
    | .fault f => .fault f
    | .refused r => .refused r

/-- The engines step in the order of `schedule`, stopping at the first stop. -/
def Platform.run (p : Platform) : List Nat → Host.Outcome Platform Fault Refusal
  | [] => .next p
  | k :: ks =>
    match p.stepEngine k with
    | .next q => q.run ks
    | .fault f => .fault f
    | .refused r => .refused r

end Sys2Proof.Machine
end

