-- ==== Sys2Proof/Machine/Pseudo.lean ====
section
/-! DEFINITION. The pseudo-instructions of rule R57 (30_encoding.md): host-side expansions into commands. -/

namespace Sys2Proof.Machine

/-- A command of the host: the word of `i` with an operand. -/
def commandOf (i : Instr) (din : Data) : Command := { word := encode i, din := din }

/-- The sequence of R129: SP.INIT, one SP.ABSORB per block of the padded message in order, SP.SQUEEZE. -/
def spongeSequence (m : List Byte) : List Command :=
  let P := pad (bytesToBits m)
  commandOf .spInit .none ::
    ((List.range (P.length / 1088)).map fun j => commandOf .spAbsorb (.bits (blockAt P j))) ++
    [commandOf .spSqueeze .none]

/-- `KECCAK256 bytes"m"` (R57): convert, pad, then the sequence of R129. -/
def expandKeccak256 (m : List Byte) : List Command :=
  commandOf .cvB2bits (.bytes m) :: commandOf .pdPad (.bits (bytesToBits m)) :: spongeSequence m

/-- A chain of KF.ROUND commands, each fed the result of the one before (R57). -/
def roundChain (t : KState) : List (Fin 24) → List Command
  | [] => []
  | ir :: rest => commandOf (.kfRound ir.val) (.state t) :: roundChain (roundFunction t ir) rest

/-- `KF.ROUNDS a b state(t)`, 0 ≤ a ≤ b ≤ 23 (R57). -/
def expandKfRounds (a b : Fin 24) (t : KState) : List Command :=
  roundChain t ((List.finRange 24).filter fun ir => decide (a ≤ ir) && decide (ir ≤ b))

end Sys2Proof.Machine
end

