-- ==== Sys2Proof/Machine/MicroView.lean ====
section
/-! DEFINITION. The micro-step view of the whole engine (rules R125 and R128 of 43_sponge.md): the same machine as `step`,
but SP.ABSORB and SP.HASH start a sequence of which every step is one micro-step, so that a power-on reset can fall inside
a command (R172). -/

namespace Sys2Proof.Machine

/-- One step in the micro-step view. -/
def microViewStep (s : State) : Result :=
  match s.inbox with
  | .powerOnReset :: rest => .next (s.powerOn rest)
  | .command c :: rest => if s.fsm.busy then microStep s else beginCommand (s.accept c rest)
  | [] => if s.fsm.busy then microStep s else .next s

end Sys2Proof.Machine
end

