-- ==== Sys2Proof/Safety.lean ====
section
/-! DEFINITION. What a safe run is: the invariants of the engine's state (rules R17 to R20, R28, R29 of 10_state.md and
R151 of 60_exceptions.md), in the terms claims use. -/

namespace Sys2Proof.Machine

/-- `n` steps of the machine whose step is `f`, stopping at the first fault or refusal. -/
def runWith (f : State → Result) : Nat → State → Result
  | 0, s => .next s
  | n + 1, s =>
    match f s with
    | .next t => runWith f n t
    | .fault r => .fault r
    | .refused r => .refused r

/-- The registers of R26. The channels, the host's moves and the build's parameters are not in it. -/
def registers (s : State) : KState × Fsm × BitVec 5 × Nat × Nat × Bool × Bits × ErrCode :=
  (s.state, s.fsm, s.rnd, s.blk, s.nblk, s.sqz, s.pbuf, s.err)

/-- The sequencer registers as R28 has them between commands. -/
abbrev SequencerQuiet (s : State) : Prop :=
  s.rnd = 0 ∧ s.blk = 0 ∧ s.nblk = 0 ∧ s.sqz = false ∧ s.pbuf = []

/-- The engine holds no command (the model's channel fields between commands, log 5). -/
abbrev HoldsNoCommand (s : State) : Prop := s.cmd = 0 ∧ s.din = .none

/-- R28: the command-boundary invariant on FSM and the sequencer registers. -/
abbrev AtCommandBoundary (s : State) : Prop := (s.fsm = .idle ∨ s.fsm = .fault) ∧ SequencerQuiet s

/-- While blocks are absorbed: `0 ≤ BLK < NBLK` (R19), PBUF holds NBLK blocks (R20), SP.ABSORB has one (R125). -/
abbrev AbsorbingBlocks (s : State) : Prop :=
  s.blk < s.nblk ∧ s.pbuf.length = 1088 * s.nblk ∧ (s.sqz = false → s.nblk = 1)

/-- While a sequence runs no error has been raised (R125) and its response is still to come (R174). -/
abbrev NoAnswerYet (s : State) : Prop := s.err = .none ∧ s.resp = none

/-- The invariant of the engine, by the value of FSM. -/
def EngineInv (s : State) : Prop :=
  match s.fsm with
  | .idle => SequencerQuiet s ∧ HoldsNoCommand s ∧ s.err = .none
  | .fault => SequencerQuiet s ∧ HoldsNoCommand s ∧ s.err ≠ .none
  | .pad => SequencerQuiet s ∧ NoAnswerYet s ∧ s.din.kind = .bytes
  | .xor => AbsorbingBlocks s ∧ NoAnswerYet s ∧ s.rnd = 0
  | .perm => AbsorbingBlocks s ∧ NoAnswerYet s ∧ s.rnd.toNat ≤ 23
  | .squeeze => NoAnswerYet s ∧ s.rnd = 0 ∧ s.blk = 0 ∧ s.sqz = true ∧ s.pbuf.length = 1088 * s.nblk

/-- BLK and NBLK fit the width BLK_W of the build, and what keeps them so: the build's width holds
`MAX_MSG_BYTES div 136 + 1` (R8) and the message being padded is within the bound (R124). -/
def CountersFit (s : State) : Prop :=
  s.cfg.wf = true ∧
  (∀ w, s.cfg.blkWidth = some w → s.nblk < 2 ^ w ∧ s.blk < 2 ^ w) ∧
  (s.fsm = .pad → ∀ m, s.din = .bytes m → s.cfg.exceeds m.length = false)

/-- The control part of the state: everything that decides which micro-step comes next (R175). The values of STATE, PBUF
and the operand are not in it, only their lengths and kinds. -/
def control (s : State) : Fsm × BitVec 5 × Nat × Nat × Bool × Nat × Kind × Nat :=
  (s.fsm, s.rnd, s.blk, s.nblk, s.sqz, s.pbuf.length, s.din.kind,
    match s.din with
    | .bytes m => m.length
    | .bits b => b.length
    | .none | .lane _ | .state _ | .word _ => 0)

/-- Two states that the host cannot tell apart but by the capacity bits of STATE (R13, R15). -/
def SameButCapacity (s t : State) : Prop :=
  s.state.setWidth 1088 = t.state.setWidth 1088 ∧ { s with state := 0 } = { t with state := 0 }

end Sys2Proof.Machine
end

