-- ==== Sys2Proof/Certificates/Slice0/Obligations.lean ====
section
/-! DEFINITION. The statements about the model, from the numbered rules of the spec. Nothing is proved here. -/

namespace Sys2Proof.Machine

/-! ### Words the statements share -/

/-- The command executes and answers ST = OK with the data `d`: `s` is the state with the command's effect on the
registers, and nothing else changes but the response channel and the captured command, which is released (the
model's own, log 5). -/
def completes (s : State) (d : Data) : Result :=
  .next { s with
    resp := some { word := respWord .ok 0 (opcField s.cmd), dout := d }
    cmd := 0
    din := .none }

/-- The command raises `code` (R151): ERR and FSM are written, the response is that of an error, no other register
changes; the captured command is released (the model's own, log 5). -/
def raises (s : State) (code : ErrCode) : Result :=
  .next { s with
    err := code
    fsm := .fault
    resp := some { word := respWord code.status code.bits (opcField s.cmd), dout := .none }
    cmd := 0
    din := .none }

/-- The command is answered FAULTED (R152): ST = 3, CODE = ERR, no data, no register changes; the captured command is
released (the model's own, log 5). -/
def isAnsweredFaulted (s : State) : Result :=
  .next { s with
    resp := some { word := respWord .faulted s.err.bits (opcField s.cmd), dout := .none }
    cmd := 0
    din := .none }

/-- Every register holds its reset value of R26. -/
abbrev HoldsResetValues (t : State) : Prop :=
  t.state = 0 ∧ t.fsm = .idle ∧ t.rnd = 0 ∧ t.blk = 0 ∧ t.nblk = 0 ∧ t.sqz = false ∧ t.pbuf = [] ∧ t.err = .none

/-- The table of R82, by round index. -/
def tableOfR82 : List Nat :=
  [ 0x0000000000000001, 0x0000000000008082, 0x800000000000808A, 0x8000000080008000, 0x000000000000808B,
    0x0000000080000001, 0x8000000080008081, 0x8000000000008009, 0x000000000000008A, 0x0000000000000088,
    0x0000000080008009, 0x000000008000000A ] ++
  [ 0x000000008000808B, 0x800000000000008B, 0x8000000000008089, 0x8000000000008003, 0x8000000000008002,
    0x8000000000000080, 0x000000000000800A, 0x800000008000000A, 0x8000000080008081, 0x8000000000008080,
    0x0000000080000001, 0x8000000080008008 ]

/-- The table of R80, rows y = 0..4, columns x = 0..4. -/
def tableOfR80 : List (List Nat) :=
  [[0, 1, 62, 28, 27], [36, 44, 6, 55, 20], [3, 10, 43, 25, 39], [41, 45, 15, 21, 8], [18, 2, 61, 56, 14]]

/-- The ROMs hold the values of R80 and R82. -/
abbrev RomsHoldTheirTables : Prop :=
  (∀ ir : Fin 24, (roundConstant ir).toNat = tableOfR82.getD ir.val 0) ∧
  (∀ x y : Fin 5, rotOffset x y = (tableOfR80.getD y.val []).getD x.val 64)

/-- The OPC values R54 (a) lists as unassigned. -/
def UnassignedByR54 (n : Nat) : Prop :=
  (0x03 ≤ n ∧ n ≤ 0x0F) ∨ (0x14 ≤ n ∧ n ≤ 0x1F) ∨ (0x22 ≤ n ∧ n ≤ 0x2F) ∨ (0x31 ≤ n ∧ n ≤ 0x3F) ∨
    (0x44 ≤ n ∧ n ≤ 0xFF)

/-- The commands whose units hold no state (R27): converter, padding unit, permutation ports. -/
def IsPureUnit : Instr → Prop
  | .cvB2bits | .cvBits2b | .cvLane2bits | .cvBits2lane | .kfRound _ | .kfPermute | .pdPad => True
  | .sysNop | .sysReset | .sysStatus | .spInit | .spAbsorb | .spSqueeze | .spHash => False

/-- The commands R14 names as writers of STATE, SYS.RESET among them as a reset. -/
def WritesState : Instr → Prop
  | .spInit | .spAbsorb | .spHash | .sysReset => True
  | .sysNop | .sysStatus | .cvB2bits | .cvBits2b | .cvLane2bits | .cvBits2lane | .kfRound _ | .kfPermute
  | .pdPad | .spSqueeze => False

/-- The host asserts no power-on reset as its next move. -/
def NoResetNext (moves : List HostMove) : Prop := ∀ rest, moves ≠ .powerOnReset :: rest

/-- Commands as moves of the host. -/
def asMoves (cs : List Command) : List HostMove := cs.map .command

end Sys2Proof.Machine

open Sys2Proof Sys2Proof.Machine

/-! ### Reset, the command word, the step -/

/-- R170 with the values of R26: the reset state, a power-on reset in any state and SYS.RESET at any command boundary all
leave every register at its reset value; the ROMs hold their tables at all times. -/
def Obligations.ResetSetsEveryRegister : Prop :=
  HoldsResetValues State.reset ∧
  (∀ s rest, s.inbox = .powerOnReset :: rest → ∃ t, step s = .next t ∧ HoldsResetValues t) ∧
  (∀ s : State, s.fsm = .idle ∨ s.fsm = .fault → ∃ t, exec .sysReset s = .next t ∧ HoldsResetValues t) ∧
  RomsHoldTheirTables

/-- R53: the words the spec writes out decode to their commands. A sanity statement. -/
def Obligations.SpecWordsDecode : Prop :=
  decode 0x0000 = .ok .sysNop ∧ decode 0x0001 = .ok .sysReset ∧ decode 0x0010 = .ok .cvB2bits ∧
  decode 0x0320 = .ok (.kfRound 3) ∧ decode 0x1720 = .ok (.kfRound 23) ∧ decode 0x0021 = .ok .kfPermute ∧
  decode 0x0030 = .ok .pdPad ∧ decode 0x0043 = .ok .spHash ∧
  decode 0x8040 = .error .reservedBits ∧ decode 0x0141 = .error .roundIndexBits ∧
  decode 0x0003 = .error .unassignedOpcode

/-- Decode and encode agree: every well-formed command is read back from its word, with its round index. -/
def Obligations.DecodeOfEncode : Prop := ∀ i : Instr, i.wf = true → decode (encode i) = .ok i

/-- The other direction: a word that decodes is the encoding of what it decodes to, so no bit of it is dropped. -/
def Obligations.EncodeOfDecode : Prop := ∀ (w : Word16) (i : Instr), decode w = .ok i → i.wf = true ∧ encode i = w

/-- R54: exactly the words of (a), (b) and (c) are illegal, such a word raises ILLEGAL_OPCODE in IDLE, and a KF.ROUND word
with IR in 24..31 decodes and raises ROUND_INDEX. -/
def Obligations.IllegalWordsAreThoseOfR54 : Prop :=
  (∀ w : Word16, (∃ e, decode w = .error e) ↔
    UnassignedByR54 (opcField w).toNat ∨ rsvField w ≠ 0 ∨ (irField w ≠ 0 ∧ opcField w ≠ 0x20)) ∧
  (∀ (s : State) e, s.fsm = .idle → decode s.cmd = .error e → runCommand s = raises s .illegalOpcode) ∧
  (∀ (s : State) (w : Word16), s.fsm = .idle → s.cmd = w → opcField w = 0x20 → rsvField w = 0 →
    24 ≤ (irField w).toNat → decode w = .ok (.kfRound (irField w).toNat) ∧ runCommand s = raises s .roundIndex)

/-- A step runs the decoded command: between commands, when the host's next command decodes to `i`, the step is `exec i` at
the state in which the command is captured: CMD and DIN hold it, no response stands, the host's next move is the one after
it, and nothing else differs. How the host's moves and the channels are held is the model's own (logs 2 and 5). -/
def Obligations.StepRunsTheDecodedCommand : Prop :=
  ∀ (s : State) (c : Command) (rest : List HostMove) (i : Instr),
    s.fsm = .idle ∨ s.fsm = .fault → s.inbox = .command c :: rest → decode c.word = .ok i →
    step s = exec i { s with cmd := c.word, din := c.din, resp := none, inbox := rest }

/-- A step on an illegal word: ILLEGAL_OPCODE in IDLE, FAULTED in FAULT (R54, R152, R153). -/
def Obligations.StepOnIllegalWord : Prop :=
  ∀ (s : State) (c : Command) (rest : List HostMove) (e : IllegalWord),
    s.inbox = .command c :: rest → decode c.word = .error e →
    (s.fsm = .idle →
      step s = raises { s with cmd := c.word, din := c.din, resp := none, inbox := rest } .illegalOpcode) ∧
    (s.fsm = .fault →
      step s = isAnsweredFaulted { s with cmd := c.word, din := c.din, resp := none, inbox := rest })

/-- A power-on reset, whatever FSM holds, abandons the command with no response and leaves the reset state (R172); a command
(SYS.RESET among them) presented while a sequence runs is held, and the engine goes on with the sequence (R174). That a held
command stays in `inbox` is the model's own (log 2), and so is that a response still standing ends with the reset (log 5). -/
def Obligations.PowerOnResetAbandonsTheCommand : Prop :=
  (∀ s rest, s.inbox = .powerOnReset :: rest →
    ∃ t, step s = .next t ∧ HoldsResetValues t ∧ t.resp = none ∧ t.inbox = rest ∧ t.cfg = s.cfg) ∧
  (∀ s c rest, s.inbox = .command c :: rest → s.fsm.busy = true →
    step s = microStep s ∧ ∀ t, step s = .next t → t.inbox = s.inbox)

/-- R163: between commands, with no move of the host to come, the engine holds all its state. -/
def Obligations.EngineHoldsItsStateBetweenCommands : Prop :=
  ∀ s : State, s.fsm = .idle ∨ s.fsm = .fault → s.inbox = [] → step s = .next s

/-- `exec` runs no command while a micro-step sequence runs (R174; the refusal is the model's own, log 8). -/
def Obligations.ExecRefusesWhileASequenceRuns : Prop :=
  ∀ (s : State) (i : Instr), s.fsm.busy = true → exec i s = .refused .commandInProgress

/-! ### System commands -/

/-- R140: SYS.NOP. -/
def Obligations.SysNopDoesNothing : Prop :=
  decode 0x0000 = .ok .sysNop ∧
  (∀ s : State, s.fsm = .idle → s.din = .none → exec .sysNop s = completes s .none) ∧
  (∀ s : State, s.fsm = .idle → s.din.kind ≠ .none → exec .sysNop s = raises s .operandKind) ∧
  (∀ s : State, s.fsm = .fault → exec .sysNop s = isAnsweredFaulted s) ∧
  (∀ s : State, s.fsm = .idle → s.din = .none → s.cmd = 0x0000 →
    exec .sysNop s = .next { s with resp := some { word := 0x0000, dout := .none }, cmd := 0, din := .none })

/-- R141: SYS.STATUS answers the status word `ERR << 4 | FSM` in IDLE and in FAULT, and at a command boundary, where
ERR is NONE exactly in IDLE (R151), that word is 0x0000 or `0x0007 | (code << 4)`. -/
def Obligations.SysStatusReadsFsmAndErr : Prop :=
  decode 0x0002 = .ok .sysStatus ∧
  (∀ s : State, (s.fsm = .idle ∧ s.din = .none) ∨ s.fsm = .fault →
    ∃ w : Word16, exec .sysStatus s = completes s (.word w) ∧ w.extractLsb' 0 3 = s.fsm.bits ∧
      w.extractLsb' 3 1 = 0 ∧ w.extractLsb' 4 4 = s.err.bits ∧ w.extractLsb' 8 8 = 0 ∧
      ((s.fsm = .idle → s.err = .none) → (s.fsm = .fault → s.err ≠ .none) →
        (s.fsm = .idle ∧ w = 0x0000) ∨
        (s.fsm = .fault ∧ ∃ code : ErrCode, code ≠ .none ∧ w = 0x0007 ||| (code.bits.setWidth 16 <<< 4)))) ∧
  (∀ s : State, s.fsm = .idle → s.din.kind ≠ .none → exec .sysStatus s = raises s .operandKind)

/-- R142: SYS.RESET, with any operand, in IDLE and in FAULT, sets every register to its reset value and answers OK; no other
command leaves FAULT. -/
def Obligations.SysResetResetsWithAnyOperand : Prop :=
  decode 0x0001 = .ok .sysReset ∧
  (∀ s : State, s.fsm = .idle ∨ s.fsm = .fault →
    exec .sysReset s = completes
      { s with state := 0, fsm := .idle, rnd := 0, blk := 0, nblk := 0, sqz := false, pbuf := [], err := .none } .none) ∧
  (∀ (i : Instr) (s t : State), s.fsm = .fault → exec i s = .next t → t.fsm ≠ .fault → i = .sysReset)

/-! ### Converter -/

/-- R71: CV.B2BITS. -/
def Obligations.CvB2bitsExpandsBytes : Prop :=
  decode 0x0010 = .ok .cvB2bits ∧
  (∀ (s : State) (m : List Byte), s.fsm = .idle → s.din = .bytes m →
    ∃ b : Bits, exec .cvB2bits s = completes s (.bits b) ∧ b.length = 8 * m.length ∧
      ∀ j k : Nat, j < m.length → k < 8 → b.getD (8 * j + k) false = (m.getD j 0).getLsbD k) ∧
  (∀ s : State, s.fsm = .idle → s.din.kind ≠ .bytes → exec .cvB2bits s = raises s .operandKind)

/-- R72: CV.BITS2B. -/
def Obligations.CvBits2bPacksBits : Prop :=
  decode 0x0011 = .ok .cvBits2b ∧
  (∀ (s : State) (b : Bits), s.fsm = .idle → s.din = .bits b → b.length % 8 = 0 →
    ∃ m : List Byte, exec .cvBits2b s = completes s (.bytes m) ∧ m.length = b.length / 8 ∧
      ∀ j k : Nat, j < m.length → k < 8 → (m.getD j 0).getLsbD k = b.getD (8 * j + k) false) ∧
  (∀ (s : State) (b : Bits), s.fsm = .idle → s.din = .bits b → b.length % 8 ≠ 0 →
    exec .cvBits2b s = raises s .bitCount) ∧
  (∀ s : State, s.fsm = .idle → s.din.kind ≠ .bits → exec .cvBits2b s = raises s .operandKind)

/-- R73: CV.LANE2BITS. -/
def Obligations.CvLane2bitsListsTheBits : Prop :=
  decode 0x0012 = .ok .cvLane2bits ∧
  (∀ (s : State) (v : Lane), s.fsm = .idle → s.din = .lane v →
    ∃ b : Bits, exec .cvLane2bits s = completes s (.bits b) ∧ b.length = 64 ∧
      ∀ z : Nat, z < 64 → b.getD z false = v.getLsbD z) ∧
  (∀ s : State, s.fsm = .idle → s.din.kind ≠ .lane → exec .cvLane2bits s = raises s .operandKind)

/-- R74: CV.BITS2LANE. -/
def Obligations.CvBits2laneMakesALane : Prop :=
  decode 0x0013 = .ok .cvBits2lane ∧
  (∀ (s : State) (b : Bits), s.fsm = .idle → s.din = .bits b → b.length = 64 →
    ∃ v : Lane, exec .cvBits2lane s = completes s (.lane v) ∧
      ∀ z : Nat, z < 64 → v.getLsbD z = b.getD z false) ∧
  (∀ (s : State) (b : Bits), s.fsm = .idle → s.din = .bits b → b.length ≠ 64 →
    exec .cvBits2lane s = raises s .laneLength) ∧
  (∀ s : State, s.fsm = .idle → s.din.kind ≠ .bits → exec .cvBits2lane s = raises s .operandKind)

/-- R75: the inverse laws of the converter. -/
def Obligations.ConverterInverseLaws : Prop :=
  (∀ m : List Byte, bitsToBytes (bytesToBits m) = m) ∧
  (∀ s : Bits, s.length % 8 = 0 → bytesToBits (bitsToBytes s) = s) ∧
  (∀ v : Lane, laneFromBits (bitsFromLane v) = v) ∧
  (∀ s : Bits, s.length = 64 → bitsFromLane (laneFromBits s) = s) ∧
  (∀ m : List Byte, 8 ≤ m.length →
    (laneFromBits (bytesToBits (m.take 8))).toNat =
      ((List.range 8).map fun j => (m.getD j 0).toNat * 2 ^ (8 * j)).sum)

/-- R36: the bytes `8i ..< 8i + 8` of a byte stream laid over the state form lane `i = x + 5y` as a little-endian word. -/
def Obligations.LanesAreLittleEndianBytes : Prop :=
  ∀ (m : List Byte) (x y : Fin 5), m.length = 200 →
    (lane (ofBits 1600 (bytesToBits m)) x y).toNat =
      ((List.range 8).map fun j => (m.getD (8 * (x.val + 5 * y.val) + j) 0).toNat * 2 ^ (8 * j)).sum

/-! ### The ROMs and the permutation -/

/-- R81: the walk visits every position but (0,0) once and gives its offset, `r[0,0] = 0`, every entry is below 64, all are
distinct. -/
def Obligations.RotationOffsetsFollowTheWalk : Prop :=
  rotOffset 0 0 = 0 ∧
  (∀ x y : Fin 5, (x, y) ≠ (0, 0) → (x, y, rotOffset x y) ∈ rotWalk) ∧
  rotWalk.length = 24 ∧
  (∀ x y : Fin 5, rotOffset x y < 64) ∧
  (∀ x y x' y' : Fin 5, rotOffset x y = rotOffset x' y' → x = x' ∧ y = y')

/-- R83: the shift register gives the round constants; their 1 bits are at 0, 1, 3, 7, 15, 31, 63 alone; RC[5] = RC[22] and
RC[6] = RC[20] have the values R83 prints. -/
def Obligations.RoundConstantsFollowTheShiftRegister : Prop :=
  (∀ ir : Fin 24, (roundConstant ir).toNat = lfsrConstant ir.val) ∧
  (∀ (ir : Fin 24) (z : Fin 64), z.val ∉ [0, 1, 3, 7, 15, 31, 63] → (roundConstant ir).getLsbD z.val = false) ∧
  roundConstant 5 = 0x0000000080000001 ∧ roundConstant 22 = 0x0000000080000001 ∧
  roundConstant 6 = 0x8000000080008081 ∧ roundConstant 20 = 0x8000000080008081

/-- R84: θ, lane by lane and bit by bit, its linearity and its value at 0. -/
def Obligations.ThetaAddsTwoColumnParities : Prop :=
  (∀ (A : KState) (x y : Fin 5),
    lane (theta A) x y = lane A x y ^^^
      ((lane A (x + 4) 0 ^^^ lane A (x + 4) 1 ^^^ lane A (x + 4) 2 ^^^ lane A (x + 4) 3 ^^^ lane A (x + 4) 4) ^^^
       (lane A (x + 1) 0 ^^^ lane A (x + 1) 1 ^^^ lane A (x + 1) 2 ^^^ lane A (x + 1) 3
          ^^^ lane A (x + 1) 4).rotateLeft 1)) ∧
  (∀ (A : KState) (x y : Fin 5) (z : Nat), z < 64 →
    stateBit (theta A) x y z =
      (stateBit A x y z
        ^^ ((List.finRange 5).foldl (fun p y' => p ^^ stateBit A (x - 1) y' z) false)
        ^^ ((List.finRange 5).foldl (fun p y' => p ^^ stateBit A (x + 1) y' ((z + 63) % 64)) false))) ∧
  (∀ A B : KState, theta (A ^^^ B) = theta A ^^^ theta B) ∧ theta 0 = 0

/-- R85: ρ, lane by lane and bit by bit; lane (0,0) stays, and 0 goes to 0. -/
def Obligations.RhoRotatesEachLane : Prop :=
  (∀ (A : KState) (x y : Fin 5), lane (rho A) x y = (lane A x y).rotateLeft (rotOffset x y)) ∧
  (∀ (A : KState) (x y : Fin 5) (z : Nat), z < 64 →
    stateBit (rho A) x y z = stateBit A x y ((z + 64 - rotOffset x y) % 64)) ∧
  (∀ A : KState, lane (rho A) 0 0 = lane A 0 0) ∧ rho 0 = 0

/-- R86: π moves lane (x, y) to (y, 2x + 3y), a bijection of the positions; read from the destination; by lane index; lane
(0,0) stays. -/
def Obligations.PiMovesEachLane : Prop :=
  (∀ (A : KState) (x y : Fin 5), lane (pi A) y (2 * x + 3 * y) = lane A x y) ∧
  (∀ (A : KState) (X Y : Fin 5), lane (pi A) X Y = lane A (X + 3 * Y) X) ∧
  (∀ (A : KState) (X Y : Fin 5),
    lane (pi A) X Y = A.extractLsb' (64 * [0, 6, 12, 18, 24, 3, 9, 10, 16, 22, 1, 7, 13, 19, 20, 4, 5, 11, 17, 23,
      2, 8, 14, 15, 21].getD (X.val + 5 * Y.val) 25) 64) ∧
  Function.Bijective (fun p : Fin 5 × Fin 5 => (p.2, 2 * p.1 + 3 * p.2)) ∧
  (∀ A : KState, lane (pi A) 0 0 = lane A 0 0)

/-- R87: χ, lane by lane and bit by bit in both of the rule's forms; 0 and the all-ones state are fixed. -/
def Obligations.ChiIsTheNonlinearStep : Prop :=
  (∀ (A : KState) (x y : Fin 5),
    lane (chi A) x y = lane A x y ^^^ (~~~lane A (x + 1) y &&& lane A (x + 2) y)) ∧
  (∀ (A : KState) (x y : Fin 5) (z : Nat), z < 64 →
    stateBit (chi A) x y z = (stateBit A x y z ^^ (!stateBit A (x + 1) y z && stateBit A (x + 2) y z))) ∧
  (∀ (A : KState) (x y : Fin 5) (z : Nat), z < 64 →
    (stateBit (chi A) x y z ≠ stateBit A x y z ↔
      stateBit A (x + 1) y z = false ∧ stateBit A (x + 2) y z = true)) ∧
  chi 0 = 0 ∧ chi (BitVec.allOnes 1600) = BitVec.allOnes 1600

/-- R88: ι changes lane (0,0) alone. -/
def Obligations.IotaChangesLaneZeroAlone : Prop :=
  ∀ (A : KState) (ir : Fin 24),
    lane (iota A ir) 0 0 = lane A 0 0 ^^^ roundConstant ir ∧
    ∀ x y : Fin 5, (x, y) ≠ (0, 0) → lane (iota A ir) x y = lane A x y

/-- R92: KF.ROUND, its exceptions and its corner cases. -/
def Obligations.KfRoundAppliesOneRound : Prop :=
  (∀ ir : Nat, ir < 24 → decode (0x0020 ||| (BitVec.ofNat 16 ir <<< 8)) = .ok (.kfRound ir)) ∧
  (∀ (s : State) (ir : Fin 24) (t : KState), s.fsm = .idle → s.din = .state t →
    exec (.kfRound ir.val) s = completes s (.state (iota (chi (pi (rho (theta t)))) ir))) ∧
  (∀ (s : State) (ir : Nat), s.fsm = .idle → 24 ≤ ir → exec (.kfRound ir) s = raises s .roundIndex) ∧
  (∀ (s : State) (ir : Nat), s.fsm = .idle → ir < 24 → s.din.kind ≠ .state →
    exec (.kfRound ir) s = raises s .operandKind) ∧
  (∀ (ir : Fin 24) (x y : Fin 5),
    lane (roundFunction 0 ir) x y = if (x, y) = (0, 0) then roundConstant ir else 0) ∧
  (∀ (t : KState) (i j : Fin 24) (x y : Fin 5),
    lane (roundFunction t i) x y ^^^ lane (roundFunction t j) x y =
      if (x, y) = (0, 0) then roundConstant i ^^^ roundConstant j else 0) ∧
  (∀ t : KState, roundFunction t 5 = roundFunction t 22)

/-- R93: KF.PERMUTE applies the 24 rounds of R90, 0 first and 23 last; the image of 0 has the lane R93 prints. -/
def Obligations.KfPermuteAppliesTwentyFourRounds : Prop :=
  decode 0x0021 = .ok .kfPermute ∧
  (∀ (s : State) (t : KState), s.fsm = .idle → s.din = .state t →
    ∃ r : Nat → KState, r 0 = t ∧ (∀ ir : Fin 24, r (ir.val + 1) = roundFunction (r ir.val) ir) ∧
      exec .kfPermute s = completes s (.state (r 24))) ∧
  (∀ s : State, s.fsm = .idle → s.din.kind ≠ .state → exec .kfPermute s = raises s .operandKind) ∧
  lane (keccakF 0) 0 0 = 0xF1258F7940E1DDE7

/-- R57, the pseudo-instructions. `KF.ROUNDS 0 23` from IDLE answers, with its last command, the result of KF.PERMUTE, and
leaves the registers as they were; `KECCAK256` answers the digest of SP.HASH and leaves its STATE. -/
def Obligations.PseudoInstructionsDoWhatR57Says : Prop :=
  (∀ (s : State) (t : KState) (rest : List HostMove), s.fsm = .idle →
    s.inbox = asMoves (expandKfRounds 0 23 t) ++ rest →
    ∃ u w, runWith step 24 s = .next u ∧ u.resp = some { word := w, dout := .state (keccakF t) } ∧
      registers u = registers s ∧ u.inbox = rest) ∧
  (∀ (s : State) (m : List Byte) (rest : List HostMove), s.fsm = .idle →
    s.inbox = asMoves (expandKeccak256 m) ++ rest →
    ∃ u w, runWith step (expandKeccak256 m).length s = .next u ∧
      u.resp = some { word := w, dout := .bytes (keccak256 m) } ∧ u.state = hashState m ∧ u.fsm = .idle ∧
      u.inbox = rest)

/-! ### Padding -/

/-- R111: the padded length, in its three forms, and that it is the least positive multiple of 1088 that is at least
`n + 8`. -/
def Obligations.PaddedLengthIsTheLeast : Prop :=
  ∀ s : Bits, s.length % 8 = 0 →
    (pad s).length = 1088 * (s.length / 1088 + 1) ∧
    (pad s).length = 1088 * (s.length / 8 / 136 + 1) ∧
    s.length + 8 ≤ (pad s).length ∧
    ∀ c : Nat, 1088 ∣ c → s.length + 8 ≤ c → (pad s).length ≤ c

/-- R112: the properties of `pad`. -/
def Obligations.PadPlacesTwoOneBits : Prop :=
  (∀ s : Bits, s.length % 8 = 0 →
    0 < (pad s).length ∧ 1088 ∣ (pad s).length ∧ (pad s).take s.length = s ∧
    (pad s).getD s.length false = true ∧
    (∀ i : Nat, s.length < i → i < (pad s).length - 1 → (pad s).getD i true = false) ∧
    (pad s).getD ((pad s).length - 1) false = true ∧ s.length < (pad s).length - 1) ∧
  (pad []).length = 1088 ∧
  (∀ (s : Bits) (b : Nat), s.length = 1088 * b → (pad s).length = 1088 * (b + 1))

/-- R113: the byte view of the padded message. -/
def Obligations.PaddedMessageAsBytes : Prop :=
  ∀ m : List Byte,
    ∃ P : List Byte, P = bitsToBytes (pad (bytesToBits m)) ∧
      P.length = 136 * (m.length / 136 + 1) ∧ P.take m.length = m ∧
      (m.length % 136 ≤ 134 →
        P.getD m.length 0 = 0x01 ∧ (∀ j : Nat, m.length < j → j < P.length - 1 → P.getD j 1 = 0x00) ∧
        P.getD (P.length - 1) 0 = 0x80) ∧
      (m.length % 136 = 135 → m.length = P.length - 1 ∧ P.getD m.length 0 = 0x81)

/-- R115: PD.PAD. -/
def Obligations.PdPadPadsABitSequence : Prop :=
  decode 0x0030 = .ok .pdPad ∧
  (∀ (s : State) (b : Bits), s.fsm = .idle → s.din = .bits b → b.length % 8 = 0 →
    exec .pdPad s = completes s (.bits (pad b)) ∧ (pad b).length = 1088 * (b.length / 1088 + 1)) ∧
  (∀ (s : State) (b : Bits), s.fsm = .idle → s.din = .bits b → b.length % 8 ≠ 0 →
    exec .pdPad s = raises s .bitCount) ∧
  (∀ s : State, s.fsm = .idle → s.din.kind ≠ .bits → exec .pdPad s = raises s .operandKind)

/-! ### Sponge -/

/-- R121: SP.INIT. -/
def Obligations.SpInitZeroesState : Prop :=
  decode 0x0040 = .ok .spInit ∧
  (∀ s : State, s.fsm = .idle → s.din = .none → exec .spInit s = completes { s with state := 0 } .none) ∧
  (∀ s : State, s.fsm = .idle → s.din.kind ≠ .none → exec .spInit s = raises s .operandKind)

/-- R122: SP.ABSORB: the block is XORed into `S[0 ..< 1088]`, the capacity bits are not, then Keccak-f. -/
def Obligations.SpAbsorbXorsTheRateThenPermutes : Prop :=
  decode 0x0041 = .ok .spAbsorb ∧
  (∀ (s : State) (blk : Bits), s.fsm = .idle → s.din = .bits blk → blk.length = 1088 →
    ∃ S' : KState, (∀ i : Nat, i < 1088 → S'.getLsbD i = (s.state.getLsbD i ^^ blk.getD i false)) ∧
      (∀ i : Nat, 1088 ≤ i → S'.getLsbD i = s.state.getLsbD i) ∧
      exec .spAbsorb s = completes { s with state := keccakF S' } .none) ∧
  (∀ (s : State) (blk : Bits), s.fsm = .idle → s.din = .bits blk → blk.length ≠ 1088 →
    exec .spAbsorb s = raises s .blockLength) ∧
  (∀ s : State, s.fsm = .idle → s.din.kind ≠ .bits → exec .spAbsorb s = raises s .operandKind)

/-- R123 with the byte order of R37: SP.SQUEEZE answers 32 bytes, byte `j` being bits `8*(j mod 8)+7 : 8*(j mod 8)` of lane
`(j div 8, 0)`, and writes no register; of a STATE of 0 they are 32 zero bytes. -/
def Obligations.SpSqueezeReadsTheDigest : Prop :=
  decode 0x0042 = .ok .spSqueeze ∧
  (∀ s : State, s.fsm = .idle → s.din = .none →
    ∃ D : List Byte, exec .spSqueeze s = completes s (.bytes D) ∧ D.length = 32 ∧
      (∀ (q : Fin 4) (r : Nat), r < 8 →
        D.getD (8 * q.val + r) 0 = (lane s.state (Fin.castLE (by omega) q) 0).extractLsb' (8 * r) 8) ∧
      (s.state = 0 → D = List.replicate 32 0)) ∧
  (∀ s : State, s.fsm = .idle → s.din.kind ≠ .none → exec .spSqueeze s = raises s .operandKind)

/-- R124: SP.HASH absorbs every block of the padded message in order, starting from `0^1600` whatever STATE holds, keeps the
final state in STATE and answers its digest; MSG_LENGTH only in a bounded build. -/
def Obligations.SpHashAbsorbsEveryBlock : Prop :=
  decode 0x0043 = .ok .spHash ∧
  (∀ (s : State) (m : List Byte), s.fsm = .idle → s.din = .bytes m →
    (∀ bound, s.cfg.maxMsgBytes = some bound → m.length ≤ bound) →
    ∃ S : Nat → KState, S 0 = 0 ∧
      (∀ j : Nat, j < m.length / 136 + 1 →
        S (j + 1) = absorbBlock (S j) (slice (pad (bytesToBits m)) (1088 * j) 1088)) ∧
      exec .spHash s = completes { s with state := S (m.length / 136 + 1) }
        (.bytes (squeezeDigest (S (m.length / 136 + 1))))) ∧
  (∀ (s : State) (m : List Byte) (bound : Nat), s.fsm = .idle → s.din = .bytes m →
    s.cfg.maxMsgBytes = some bound → bound < m.length → exec .spHash s = raises s .msgLength) ∧
  (∀ s : State, s.fsm = .idle → s.din.kind ≠ .bytes → exec .spHash s = raises s .operandKind)

/-- R129: the sequence SP.INIT, SP.ABSORB of every block in order, SP.SQUEEZE, run by the step, returns the digest of
SP.HASH and leaves the same STATE, for every message that the build of the engine running SP.HASH accepts. -/
def Obligations.SpongeSequenceEqualsHash : Prop :=
  ∀ (s h : State) (m : List Byte) (rest : List HostMove), s.fsm = .idle →
    s.inbox = asMoves (spongeSequence m) ++ rest →
    h.fsm = .idle → h.din = .bytes m → h.cfg.exceeds m.length = false →
    ∃ u v ru rv, runWith step (m.length / 136 + 3) s = .next u ∧ exec .spHash h = .next v ∧
      u.resp = some ru ∧ v.resp = some rv ∧ ru.dout = rv.dout ∧ u.state = v.state ∧
      u.fsm = .idle ∧ u.inbox = rest

/-- R125: every row of the transition table of the sponge state machine, and that the other commands take no transition and
errors are raised from IDLE alone. -/
def Obligations.SpongeStateMachineTable : Prop :=
  (∀ (s : State) (m : List Byte), s.fsm = .idle → decode s.cmd = .ok .spHash → s.din = .bytes m →
    s.cfg.exceeds m.length = false → beginCommand s = .next { s with fsm := .pad }) ∧
  (∀ (s : State) (blk : Bits), s.fsm = .idle → decode s.cmd = .ok .spAbsorb → s.din = .bits blk →
    blk.length = 1088 →
    beginCommand s = .next { s with fsm := .xor, pbuf := blk, nblk := 1, blk := 0, sqz := false }) ∧
  (∀ (s : State) (m : List Byte), s.fsm = .pad → s.din = .bytes m →
    microStep s = .next { s with
      fsm := .xor, pbuf := pad (bytesToBits m), nblk := (pad (bytesToBits m)).length / 1088, blk := 0,
      sqz := true, state := 0 }) ∧
  (∀ s : State, s.fsm = .xor → 1088 * s.blk + 1088 ≤ s.pbuf.length →
    microStep s = .next { s with
      fsm := .perm, state := xorRate s.state (slice s.pbuf (1088 * s.blk) 1088), rnd := 0 }) ∧
  (∀ (s : State) (h : s.rnd.toNat < 24), s.fsm = .perm → s.rnd.toNat < 23 →
    microStep s = .next { s with state := roundFunction s.state ⟨s.rnd.toNat, h⟩, rnd := s.rnd + 1 }) ∧
  (∀ s : State, s.fsm = .perm → s.rnd = 23 → s.blk + 1 < s.nblk →
    microStep s = .next { s with
      fsm := .xor, state := roundFunction s.state 23, rnd := 0, blk := s.blk + 1 }) ∧
  (∀ s : State, s.fsm = .perm → s.rnd = 23 → s.blk + 1 = s.nblk → s.sqz = true →
    microStep s = .next { s with fsm := .squeeze, state := roundFunction s.state 23, rnd := 0, blk := 0 }) ∧
  (∀ s : State, s.fsm = .perm → s.rnd = 23 → s.blk + 1 = s.nblk → s.sqz = false →
    microStep s = completes
      { s with fsm := .idle, state := roundFunction s.state 23, rnd := 0, blk := 0, nblk := 0, pbuf := [] } .none) ∧
  (∀ s : State, s.fsm = .squeeze →
    microStep s = completes { s with fsm := .idle, nblk := 0, sqz := false, pbuf := [] }
      (.bytes (squeezeDigest s.state))) ∧
  (∀ s t : State, s.fsm = .idle → beginCommand s = .next t → t.fsm = .fault →
    ∃ code : ErrCode, code ≠ .none ∧ beginCommand s = raises s code) ∧
  (∀ s t : State, s.fsm.busy = true → microStep s = .next t → t.fsm ≠ .fault) ∧
  (∀ (s t : State) (i : Instr), s.fsm = .idle → decode s.cmd = .ok i → i ≠ .spAbsorb → i ≠ .spHash →
    beginCommand s = .next t → t.fsm = .idle ∨ t.fsm = .fault) ∧
  (∀ s : State, s.fsm = .fault → decode s.cmd = .ok .sysReset → ∃ t, beginCommand s = .next t ∧ HoldsResetValues t) ∧
  (∀ (s : State) (rest : List HostMove), s.inbox = .powerOnReset :: rest →
    ∃ t, microViewStep s = .next t ∧ HoldsResetValues t)

/-- R128 for SP.ABSORB: 26 micro-steps, after each of which but the last the sequence still runs, end in the state of the
atomic step. -/
def Obligations.AbsorbMicroStepsEqualTheAtomicStep : Prop :=
  ∀ (s : State) (blk : Bits) (rest : List HostMove), s.fsm = .idle → SequencerQuiet s →
    s.inbox = .command { word := 0x0041, din := .bits blk } :: rest → blk.length = 1088 → NoResetNext rest →
    runWith microViewStep 26 s = step s ∧
    ∀ n : Nat, 0 < n → n < 26 → ∃ t, runWith microViewStep n s = .next t ∧ t.fsm.busy = true

/-- R128 for SP.HASH: `3 + 25k` micro-steps with `k = L div 136 + 1` end in the state of the atomic step, and before the last
of them the sequence still runs. -/
def Obligations.HashMicroStepsEqualTheAtomicStep : Prop :=
  ∀ (s : State) (m : List Byte) (rest : List HostMove), s.fsm = .idle → SequencerQuiet s →
    s.inbox = .command { word := 0x0043, din := .bytes m } :: rest → s.cfg.exceeds m.length = false →
    NoResetNext rest →
    runWith microViewStep (3 + 25 * (m.length / 136 + 1)) s = step s ∧
    ∀ n : Nat, 0 < n → n < 3 + 25 * (m.length / 136 + 1) →
      ∃ t, runWith microViewStep n s = .next t ∧ t.fsm.busy = true

/-- R175: the sequence of micro-steps depends on the command word and on the operand's kind and length, never on the value of
a message, block or state bit: two engines in IDLE that differ only in STATE and in the operand's bits go through the same
control states, step by step. -/
def Obligations.ControlIsIndependentOfData : Prop :=
  ∀ (s t : State) (w : Word16) (d e : Data) (n : Nat), s.fsm = .idle → SequencerQuiet s →
    s.inbox = [.command { word := w, din := d }] →
    t = { s with state := t.state, inbox := [.command { word := w, din := e }] } →
    d.kind = e.kind →
    (match d, e with
      | .bytes a, .bytes b => a.length = b.length
      | .bits a, .bits b => a.length = b.length
      | _, _ => True) →
    ∃ u v, runWith microViewStep n s = .next u ∧ runWith microViewStep n t = .next v ∧
      control u = control v ∧ u.err = v.err

/-! ### Errors -/

/-- R151: raising is precise. Whatever command of IDLE ends with FSM in FAULT, ERR holds the code raised, the response has its
class and code, no data comes out, and STATE, RND, BLK, NBLK, SQZ and PBUF are what they were; ERR was NONE before, so the
code is that of the first error since reset. That the captured command is released is the model's own (log 5). -/
def Obligations.RaisingAnErrorIsPrecise : Prop :=
  ∀ (s t : State) (c : Command) (rest : List HostMove), s.fsm = .idle → s.inbox = .command c :: rest →
    step s = .next t → t.fsm = .fault →
    (∃ code : ErrCode, code ≠ .none ∧
      t = { s with
        err := code, fsm := .fault, inbox := rest, cmd := 0, din := .none
        resp := some { word := respWord code.status code.bits (opcField c.word), dout := .none } }) ∧
    (EngineInv s → s.err = .none)

/-- R150, R17: the code and the class of every error, and the value of every FSM state, as the response word and the status
word carry them. A sanity statement. -/
def Obligations.CodesAndClassesOfTheSpec : Prop :=
  ([ErrCode.none, .blockLength, .bitCount, .illegalOpcode, .roundIndex, .operandKind, .laneLength, .msgLength].map
      fun c => (c.bits.toNat, c.status.bits.toNat)) =
    [(0, 0), (1, 1), (2, 1), (3, 2), (4, 2), (5, 2), (6, 1), (7, 1)] ∧
  ([Fsm.idle, .pad, .xor, .perm, .squeeze, .fault].map fun f => f.bits.toNat) = [0, 1, 2, 3, 4, 7] ∧
  RespStatus.faulted.bits = 3

/-- R152: in FAULT SYS.RESET performs the reset, SYS.STATUS answers the status word, and every other word, legal or illegal,
with any operand, is answered FAULTED with no register changed. -/
def Obligations.FaultIsSticky : Prop :=
  ∀ (s : State) (c : Command) (rest : List HostMove), s.fsm = .fault → s.inbox = .command c :: rest →
    (decode c.word = .ok .sysReset →
      ∃ t, step s = .next t ∧ HoldsResetValues t ∧ t.resp = some { word := 0x0100, dout := .none }) ∧
    (decode c.word = .ok .sysStatus →
      ∃ t, step s = .next t ∧ t.resp = some { word := 0x0200, dout := .word (statusWord s.err .fault) } ∧
        registers t = registers s) ∧
    (decode c.word ≠ .ok .sysReset → decode c.word ≠ .ok .sysStatus →
      step s = isAnsweredFaulted { s with cmd := c.word, din := c.din, resp := none, inbox := rest })

/-- R153: the first failing check of the rule's list decides: FAULT, then word legality, then ROUND_INDEX, then the operand
kind (not for SYS.RESET), then the command's own check; a command that passes them all executes and raises nothing. -/
def Obligations.FirstFailingCheckDecides : Prop :=
  (∀ s : State, s.fsm = .fault → decode s.cmd ≠ .ok .sysStatus → decode s.cmd ≠ .ok .sysReset →
    runCommand s = isAnsweredFaulted s) ∧
  (∀ (s : State) (i : Instr), s.fsm = .fault → decode s.cmd = .ok i → i = .sysStatus ∨ i = .sysReset →
    ∃ t r, runCommand s = .next t ∧ t.resp = some r ∧ r.word.extractLsb' 0 2 = 0) ∧
  ∀ s : State, s.fsm = .idle →
    (∀ e, decode s.cmd = .error e → runCommand s = raises s .illegalOpcode) ∧
    (∀ i, decode s.cmd = .ok i →
      (∀ ir, i = .kfRound ir → 24 ≤ ir → runCommand s = raises s .roundIndex) ∧
      ((∀ ir, i = .kfRound ir → ir < 24) → i ≠ .sysReset → s.din.kind ≠ i.operandKind →
        runCommand s = raises s .operandKind) ∧
      (∀ b, i = .spAbsorb → s.din = .bits b → b.length ≠ 1088 → runCommand s = raises s .blockLength) ∧
      (∀ b, i = .cvBits2b ∨ i = .pdPad → s.din = .bits b → b.length % 8 ≠ 0 → runCommand s = raises s .bitCount) ∧
      (∀ b, i = .cvBits2lane → s.din = .bits b → b.length ≠ 64 → runCommand s = raises s .laneLength) ∧
      (∀ m, i = .spHash → s.din = .bytes m → s.cfg.exceeds m.length = true → runCommand s = raises s .msgLength) ∧
      ((∀ ir, i = .kfRound ir → ir < 24) → (i ≠ .sysReset → s.din.kind = i.operandKind) →
        (∀ b, i = .spAbsorb → s.din = .bits b → b.length = 1088) →
        (∀ b, i = .cvBits2b ∨ i = .pdPad → s.din = .bits b → b.length % 8 = 0) →
        (∀ b, i = .cvBits2lane → s.din = .bits b → b.length = 64) →
        (∀ m, i = .spHash → s.din = .bytes m → s.cfg.exceeds m.length = false) →
        ∃ t r, runCommand s = .next t ∧ t.fsm = .idle ∧ t.resp = some r ∧ r.word.extractLsb' 0 2 = 0 ∧
          r.dout.kind = i.resultKind))

/-- R156: from FAULT the engine stays in FAULT with the error it holds, or a reset takes it to the reset state; faults do not
nest. -/
def Obligations.OnlyResetLeavesFault : Prop :=
  ∀ s t : State, s.fsm = .fault → step s = .next t →
    (t.fsm = .fault ∧ t.err = s.err) ∨
    (HoldsResetValues t ∧
      ((∃ rest, s.inbox = .powerOnReset :: rest) ∨
       (∃ c rest, s.inbox = .command c :: rest ∧ decode c.word = .ok .sysReset)))

/-- R21: ERR is written by raising an error alone, is never overwritten in FAULT, and is cleared only by a reset. -/
def Obligations.ErrHoldsTheFirstError : Prop :=
  ∀ s t : State, step s = .next t → t.err ≠ s.err →
    (s.fsm = .idle ∧ t.fsm = .fault ∧ t.err ≠ .none) ∨
    (t.err = .none ∧ ((∃ rest, s.inbox = .powerOnReset :: rest) ∨
      (∃ c rest, s.inbox = .command c :: rest ∧ decode c.word = .ok .sysReset)))

/-- R55: every command, legal or not, gets one response with the fields of the rule. -/
def Obligations.EveryCommandGetsOneResponse : Prop :=
  ∀ (s : State) (c : Command) (rest : List HostMove), s.fsm = .idle ∨ s.fsm = .fault →
    s.inbox = .command c :: rest →
    ∃ t r, step s = .next t ∧ t.resp = some r ∧ t.inbox = rest ∧
      r.word.extractLsb' 8 8 = c.word.extractLsb' 0 8 ∧ r.word.extractLsb' 2 2 = 0 ∧
      ((r.word.extractLsb' 0 2 = 0 ∧ r.word.extractLsb' 4 4 = 0 ∧
        ∃ i, decode c.word = .ok i ∧ r.dout.kind = i.resultKind) ∨
       (s.fsm = .idle ∧ t.fsm = .fault ∧ r.word.extractLsb' 4 4 = t.err.bits ∧ r.dout = .none ∧
        r.word.extractLsb' 0 2 =
          if t.err ∈ [.blockLength, .bitCount, .laneLength, .msgLength] then 1 else 2) ∨
       (s.fsm = .fault ∧ r.word.extractLsb' 0 2 = 3 ∧ r.word.extractLsb' 4 4 = s.err.bits ∧ r.dout = .none ∧
        registers t = registers s))

/-! ### The whole machine -/

/-- The invariant holds at reset, in every build. That the channels hold nothing then is the model's own (log 5). -/
def Obligations.InvariantHoldsAtReset : Prop := EngineInv State.reset ∧ ∀ cfg : Config, EngineInv (State.resetOf cfg)

/-- Every step keeps the invariant (R17 to R20, R28, R29, R151). Its clauses about the channels are the model's own
(log 5). -/
def Obligations.EveryStepKeepsTheInvariant : Prop := ∀ s t : State, EngineInv s → step s = .next t → EngineInv t

/-- Every step of the micro-step view keeps the invariant too. -/
def Obligations.MicroViewKeepsTheInvariant : Prop := ∀ s t : State, EngineInv s → microViewStep s = .next t → EngineInv t

/-- No state that meets the invariant stops the machine, in either view: the engine is total (R91, R176). -/
def Obligations.NoStepStopsTheEngine : Prop :=
  ∀ s : State, EngineInv s → (∃ t, step s = .next t) ∧ (∃ t, microViewStep s = .next t)

/-- The block counters fit the width BLK_W of a build whose width holds `MAX_MSG_BYTES div 136 + 1` (R8, R19), in both
views. -/
def Obligations.BlockCountersFitTheirWidth : Prop :=
  (∀ cfg : Config, cfg.wf = true → CountersFit (State.resetOf cfg)) ∧
  (∀ s t : State, CountersFit s → (step s = .next t ∨ microViewStep s = .next t) → CountersFit t)

/-- R28: after a power-on reset the engine is at a command boundary, and after every response of a command accepted at a
command boundary it is at one again. -/
def Obligations.CommandEndsAtABoundary : Prop :=
  (∀ (s : State) (rest : List HostMove), s.inbox = .powerOnReset :: rest →
    ∃ t, step s = .next t ∧ AtCommandBoundary t) ∧
  ∀ (s t : State) (c : Command) (rest : List HostMove), AtCommandBoundary s → s.inbox = .command c :: rest →
    step s = .next t → AtCommandBoundary t

/-- R14: the writers of STATE at a command boundary are SP.INIT, SP.HASH, SP.ABSORB and reset. -/
def Obligations.OnlyTheNamedCommandsWriteState : Prop :=
  ∀ s t : State, s.fsm = .idle ∨ s.fsm = .fault → step s = .next t → t.state ≠ s.state →
    (∃ rest, s.inbox = .powerOnReset :: rest) ∨
    (∃ c rest i, s.inbox = .command c :: rest ∧ decode c.word = .ok i ∧ WritesState i)

/-- R27: the pure units write no register unless they raise, and their response depends on the command word and the operand
alone. -/
def Obligations.PureUnitsHoldNoState : Prop :=
  ∀ i : Instr, IsPureUnit i → ∀ s t : State, s.fsm = .idle → exec i s = .next t →
    (t.fsm = .idle → registers t = registers s) ∧
    (∀ s' t' : State, s'.fsm = .idle → s'.cmd = s.cmd → s'.din = s.din → exec i s' = .next t' →
      t'.resp = t.resp)

/-- R40: repeating a pure command, SYS.NOP, SYS.STATUS, SP.SQUEEZE, SP.INIT or SP.HASH with the same operand gives the same
response and leaves every register as the first left it. -/
def Obligations.RepeatingACommandChangesNothing : Prop :=
  ∀ (i : Instr) (s t : State), IsPureUnit i ∨ i ∈ [.sysNop, .sysStatus, .spSqueeze, .spInit, .spHash] →
    s.fsm = .idle → exec i s = .next t → t.fsm = .idle →
    ∃ u, exec i { t with cmd := s.cmd, din := s.din } = .next u ∧ u.resp = t.resp ∧ registers u = registers t

/-- R15, R158: the host cannot tell two engines apart that differ in the capacity bits of STATE: any command gets the same
response from both, and only SP.ABSORB can make them differ in more than capacity bits. -/
def Obligations.CapacityBitsAreNeverExposed : Prop :=
  ∀ (s t : State) (i : Instr), s.fsm = .idle ∨ s.fsm = .fault → SameButCapacity s t →
    ∃ s' t', exec i s = .next s' ∧ exec i t = .next t' ∧ s'.resp = t'.resp ∧
      (i ≠ .spAbsorb → SameButCapacity s' t')

/-- R161: engines of a platform are independent: after any schedule each engine is where its own steps alone take it. -/
def Obligations.EnginesShareNoState : Prop :=
  ∀ (p q : Platform) (schedule : List Nat), p.run schedule = .next q →
    q.engines.length = p.engines.length ∧ q.engineBase = p.engineBase ∧
    ∀ (k : Nat) (s : State), p.engines[k]? = some s →
      ∃ t, q.engines[k]? = some t ∧ runWith step (schedule.count k) s = .next t
end

