-- ==== Sys2Proof/Laws/Bits.lean ====
section
/-! SUPPORT. What each function over bit sequences says of a bit and of a length (rules R70, R34, R35): the lemmas later
proofs cite instead of unfolding the conversions. -/

namespace Sys2Proof.Machine

@[simp] theorem bitsVal_nil : bitsVal [] = 0 := rfl

theorem bitsVal_cons (b : Bool) (s : Bits) : bitsVal (b :: s) = b.toNat + 2 * bitsVal s := rfl

theorem bitsVal_lt (s : Bits) : bitsVal s < 2 ^ s.length := by
  induction s with
  | nil => simp
  | cons b s ih =>
    have hb : b.toNat ≤ 1 := Bool.toNat_le b
    rw [bitsVal_cons, List.length_cons, Nat.pow_succ]
    omega

theorem testBit_bitsVal (s : Bits) (k : Nat) : (bitsVal s).testBit k = s.getD k false := by
  induction s generalizing k with
  | nil => simp
  | cons b s ih =>
    rw [bitsVal_cons]
    cases k with
    | zero => cases b <;> simp [Nat.testBit_zero, Nat.add_mod]
    | succ k =>
      have hdiv : (b.toNat + 2 * bitsVal s) / 2 = bitsVal s := by
        have hb : b.toNat ≤ 1 := Bool.toNat_le b
        omega
      rw [Nat.testBit_succ, hdiv, ih, List.getD_cons_succ]

theorem getLsbD_ofBits (n : Nat) (s : Bits) (k : Nat) :
    (ofBits n s).getLsbD k = (decide (k < n) && s.getD k false) := by
  rw [ofBits, BitVec.getLsbD_ofNat, testBit_bitsVal]

@[simp] theorem length_toBits {n : Nat} (v : BitVec n) : (toBits v).length = n := by simp [toBits]

@[simp] theorem getElem_toBits {n : Nat} (v : BitVec n) (k : Nat) (h : k < (toBits v).length) :
    (toBits v)[k] = v.getLsbD k := by simp [toBits]

theorem getD_toBits {n : Nat} (v : BitVec n) (k : Nat) : (toBits v).getD k false = v.getLsbD k := by
  rcases Nat.lt_or_ge k n with h | h
  · rw [List.getD_eq_getElem _ _ (by simpa using h), getElem_toBits]
  · rw [List.getD_eq_default _ _ (by simpa using h), BitVec.getLsbD_of_ge _ _ h]

theorem ofBits_toBits {n : Nat} (v : BitVec n) : ofBits n (toBits v) = v := by
  apply BitVec.eq_of_getLsbD_eq
  intro k hk
  rw [getLsbD_ofBits, getD_toBits, decide_eq_true hk, Bool.true_and]

theorem toBits_ofBits {n : Nat} (s : Bits) (h : s.length = n) : toBits (ofBits n s) = s := by
  apply List.ext_getElem (by simp [h])
  intro k h₁ h₂
  rw [getElem_toBits, getLsbD_ofBits, List.getD_eq_getElem _ _ h₂]
  simp only [length_toBits] at h₁
  simp [h₁]

theorem length_slice (s : Bits) (a n : Nat) : (slice s a n).length = min n (s.length - a) := by
  simp [slice]

theorem getD_slice (s : Bits) (a n k : Nat) (h : k < n) :
    (slice s a n).getD k false = s.getD (a + k) false := by
  simp [slice, List.getD_eq_getElem?_getD, List.getElem?_drop, h]

@[simp] theorem length_bytesToBits (m : List Byte) : (bytesToBits m).length = 8 * m.length := by
  induction m with
  | nil => rfl
  | cons b m ih =>
    rw [bytesToBits, List.flatMap_cons, List.length_append, length_toBits, ← bytesToBits, ih, List.length_cons]
    omega

@[simp] theorem length_bitsToBytes (s : Bits) : (bitsToBytes s).length = s.length / 8 := by
  simp [bitsToBytes]

theorem getElem_bitsToBytes (s : Bits) (j : Nat) (h : j < (bitsToBytes s).length) :
    (bitsToBytes s)[j] = ofBits 8 (slice s (8 * j) 8) := by simp [bitsToBytes]

end Sys2Proof.Machine
end

