-- ==== Sys2Proof/Laws/Lanes.lean ====
section
/-! SUPPORT. The lane view of a 1600-bit state (rule R11 of 10_state.md): the lanes of `ofLanes f` are `f`, and a state is
its lanes. Proofs about the step mappings cite these and never unfold `ofLanes`. -/

namespace Sys2Proof.Machine

theorem testBit_lanesVal (vs : List Lane) (i z : Nat) (hz : z < 64) :
    (lanesVal vs).testBit (64 * i + z) = (vs.getD i 0).getLsbD z := by
  induction vs generalizing i with
  | nil => simp [lanesVal]
  | cons v vs ih =>
    have hv : v.toNat < 2 ^ 64 := v.isLt
    rw [lanesVal, Nat.add_comm v.toNat, Nat.testBit_two_pow_mul_add _ hv]
    cases i with
    | zero => simp [hz, BitVec.testBit_toNat]
    | succ i =>
      have h₁ : ¬ (64 * (i + 1) + z < 64) := by omega
      have h₂ : 64 * (i + 1) + z - 64 = 64 * i + z := by omega
      rw [if_neg h₁, h₂, ih, List.getD_cons_succ]

/-- The lane list of `ofLanes`, entry by entry. -/
theorem getD_map_grid (f : Fin 5 → Fin 5 → Lane) (x y : Fin 5) :
    (grid.map fun p => f p.1 p.2).getD (x.val + 5 * y.val) 0 = f x y := by
  fin_cases x <;> fin_cases y <;> rfl

@[simp] theorem lane_ofLanes (f : Fin 5 → Fin 5 → Lane) (x y : Fin 5) : lane (ofLanes f) x y = f x y := by
  apply BitVec.eq_of_getLsbD_eq
  intro z hz
  have hi : 64 * (x.val + 5 * y.val) + z < 1600 := by omega
  rw [lane, BitVec.getLsbD_extractLsb', ofLanes, BitVec.getLsbD_ofNat, testBit_lanesVal _ _ _ hz, getD_map_grid]
  simp [hz, hi]

/-- The bit of a lane is the bit of the state at `idx(x, y, z) = 64 * (x + 5*y) + z` (R11). -/
theorem stateBit_eq (S : KState) (x y : Fin 5) (z : Nat) (hz : z < 64) :
    stateBit S x y z = S.getLsbD (64 * (x.val + 5 * y.val) + z) := by
  simp [stateBit, lane, hz]

/-- Two states with the same lanes are the same state. -/
theorem state_ext {S T : KState} (h : ∀ x y, lane S x y = lane T x y) : S = T := by
  apply BitVec.eq_of_getLsbD_eq
  intro i hi
  have hz : i % 64 < 64 := Nat.mod_lt _ (by omega)
  let x : Fin 5 := ⟨i / 64 % 5, Nat.mod_lt _ (by omega)⟩
  let y : Fin 5 := ⟨i / 64 / 5, by omega⟩
  have hxy : 64 * (x.val + 5 * y.val) + i % 64 = i := by
    simp only [x, y]
    omega
  have hb : stateBit S x y (i % 64) = stateBit T x y (i % 64) := by rw [stateBit, stateBit, h x y]
  rwa [stateBit_eq _ _ _ _ hz, stateBit_eq _ _ _ _ hz, hxy] at hb

@[simp] theorem ofLanes_lane (S : KState) : ofLanes (lane S) = S := state_ext fun x y => by simp

@[simp] theorem lane_zero (x y : Fin 5) : lane 0#1600 x y = 0#64 := by
  simp [lane]

end Sys2Proof.Machine
end

