-- ==== Sys2Proof/Laws/State.lean ====
section
/-! SUPPORT. One lemma per field of State per update of the shared operations and of the micro-steps, true by rfl, so that
no later proof unfolds a record update. -/

namespace Sys2Proof.Machine

@[simp] theorem State.respond_state (s : State) (st : RespStatus) (code : BitVec 4) (d : Data) : (s.respond st code d).state = s.state := rfl
@[simp] theorem State.respond_fsm (s : State) (st : RespStatus) (code : BitVec 4) (d : Data) : (s.respond st code d).fsm = s.fsm := rfl
@[simp] theorem State.respond_rnd (s : State) (st : RespStatus) (code : BitVec 4) (d : Data) : (s.respond st code d).rnd = s.rnd := rfl
@[simp] theorem State.respond_blk (s : State) (st : RespStatus) (code : BitVec 4) (d : Data) : (s.respond st code d).blk = s.blk := rfl
@[simp] theorem State.respond_nblk (s : State) (st : RespStatus) (code : BitVec 4) (d : Data) : (s.respond st code d).nblk = s.nblk := rfl
@[simp] theorem State.respond_sqz (s : State) (st : RespStatus) (code : BitVec 4) (d : Data) : (s.respond st code d).sqz = s.sqz := rfl
@[simp] theorem State.respond_pbuf (s : State) (st : RespStatus) (code : BitVec 4) (d : Data) : (s.respond st code d).pbuf = s.pbuf := rfl
@[simp] theorem State.respond_err (s : State) (st : RespStatus) (code : BitVec 4) (d : Data) : (s.respond st code d).err = s.err := rfl
@[simp] theorem State.respond_cmd (s : State) (st : RespStatus) (code : BitVec 4) (d : Data) : (s.respond st code d).cmd = 0 := rfl
@[simp] theorem State.respond_din (s : State) (st : RespStatus) (code : BitVec 4) (d : Data) : (s.respond st code d).din = .none := rfl
@[simp] theorem State.respond_resp (s : State) (st : RespStatus) (code : BitVec 4) (d : Data) : (s.respond st code d).resp = some { word := respWord st code (opcField s.cmd), dout := d } := rfl
@[simp] theorem State.respond_inbox (s : State) (st : RespStatus) (code : BitVec 4) (d : Data) : (s.respond st code d).inbox = s.inbox := rfl
@[simp] theorem State.respond_cfg (s : State) (st : RespStatus) (code : BitVec 4) (d : Data) : (s.respond st code d).cfg = s.cfg := rfl

@[simp] theorem State.ok_state (s : State) (d : Data) : (s.ok d).state = s.state := rfl
@[simp] theorem State.ok_fsm (s : State) (d : Data) : (s.ok d).fsm = s.fsm := rfl
@[simp] theorem State.ok_rnd (s : State) (d : Data) : (s.ok d).rnd = s.rnd := rfl
@[simp] theorem State.ok_blk (s : State) (d : Data) : (s.ok d).blk = s.blk := rfl
@[simp] theorem State.ok_nblk (s : State) (d : Data) : (s.ok d).nblk = s.nblk := rfl
@[simp] theorem State.ok_sqz (s : State) (d : Data) : (s.ok d).sqz = s.sqz := rfl
@[simp] theorem State.ok_pbuf (s : State) (d : Data) : (s.ok d).pbuf = s.pbuf := rfl
@[simp] theorem State.ok_err (s : State) (d : Data) : (s.ok d).err = s.err := rfl
@[simp] theorem State.ok_cmd (s : State) (d : Data) : (s.ok d).cmd = 0 := rfl
@[simp] theorem State.ok_din (s : State) (d : Data) : (s.ok d).din = .none := rfl
@[simp] theorem State.ok_resp (s : State) (d : Data) : (s.ok d).resp = some { word := respWord .ok 0 (opcField s.cmd), dout := d } := rfl
@[simp] theorem State.ok_inbox (s : State) (d : Data) : (s.ok d).inbox = s.inbox := rfl
@[simp] theorem State.ok_cfg (s : State) (d : Data) : (s.ok d).cfg = s.cfg := rfl

@[simp] theorem State.raise_state (s : State) (code : ErrCode) : (s.raise code).state = s.state := rfl
@[simp] theorem State.raise_fsm (s : State) (code : ErrCode) : (s.raise code).fsm = .fault := rfl
@[simp] theorem State.raise_rnd (s : State) (code : ErrCode) : (s.raise code).rnd = s.rnd := rfl
@[simp] theorem State.raise_blk (s : State) (code : ErrCode) : (s.raise code).blk = s.blk := rfl
@[simp] theorem State.raise_nblk (s : State) (code : ErrCode) : (s.raise code).nblk = s.nblk := rfl
@[simp] theorem State.raise_sqz (s : State) (code : ErrCode) : (s.raise code).sqz = s.sqz := rfl
@[simp] theorem State.raise_pbuf (s : State) (code : ErrCode) : (s.raise code).pbuf = s.pbuf := rfl
@[simp] theorem State.raise_err (s : State) (code : ErrCode) : (s.raise code).err = code := rfl
@[simp] theorem State.raise_cmd (s : State) (code : ErrCode) : (s.raise code).cmd = 0 := rfl
@[simp] theorem State.raise_din (s : State) (code : ErrCode) : (s.raise code).din = .none := rfl
@[simp] theorem State.raise_resp (s : State) (code : ErrCode) : (s.raise code).resp = some { word := respWord code.status code.bits (opcField s.cmd), dout := .none } := rfl
@[simp] theorem State.raise_inbox (s : State) (code : ErrCode) : (s.raise code).inbox = s.inbox := rfl
@[simp] theorem State.raise_cfg (s : State) (code : ErrCode) : (s.raise code).cfg = s.cfg := rfl

@[simp] theorem State.answerFaulted_state (s : State) : (s.answerFaulted).state = s.state := rfl
@[simp] theorem State.answerFaulted_fsm (s : State) : (s.answerFaulted).fsm = s.fsm := rfl
@[simp] theorem State.answerFaulted_rnd (s : State) : (s.answerFaulted).rnd = s.rnd := rfl
@[simp] theorem State.answerFaulted_blk (s : State) : (s.answerFaulted).blk = s.blk := rfl
@[simp] theorem State.answerFaulted_nblk (s : State) : (s.answerFaulted).nblk = s.nblk := rfl
@[simp] theorem State.answerFaulted_sqz (s : State) : (s.answerFaulted).sqz = s.sqz := rfl
@[simp] theorem State.answerFaulted_pbuf (s : State) : (s.answerFaulted).pbuf = s.pbuf := rfl
@[simp] theorem State.answerFaulted_err (s : State) : (s.answerFaulted).err = s.err := rfl
@[simp] theorem State.answerFaulted_cmd (s : State) : (s.answerFaulted).cmd = 0 := rfl
@[simp] theorem State.answerFaulted_din (s : State) : (s.answerFaulted).din = .none := rfl
@[simp] theorem State.answerFaulted_resp (s : State) : (s.answerFaulted).resp = some { word := respWord .faulted s.err.bits (opcField s.cmd), dout := .none } := rfl
@[simp] theorem State.answerFaulted_inbox (s : State) : (s.answerFaulted).inbox = s.inbox := rfl
@[simp] theorem State.answerFaulted_cfg (s : State) : (s.answerFaulted).cfg = s.cfg := rfl

@[simp] theorem State.resetRegs_state (s : State) : (s.resetRegs).state = 0 := rfl
@[simp] theorem State.resetRegs_fsm (s : State) : (s.resetRegs).fsm = .idle := rfl
@[simp] theorem State.resetRegs_rnd (s : State) : (s.resetRegs).rnd = 0 := rfl
@[simp] theorem State.resetRegs_blk (s : State) : (s.resetRegs).blk = 0 := rfl
@[simp] theorem State.resetRegs_nblk (s : State) : (s.resetRegs).nblk = 0 := rfl
@[simp] theorem State.resetRegs_sqz (s : State) : (s.resetRegs).sqz = false := rfl
@[simp] theorem State.resetRegs_pbuf (s : State) : (s.resetRegs).pbuf = [] := rfl
@[simp] theorem State.resetRegs_err (s : State) : (s.resetRegs).err = .none := rfl
@[simp] theorem State.resetRegs_cmd (s : State) : (s.resetRegs).cmd = s.cmd := rfl
@[simp] theorem State.resetRegs_din (s : State) : (s.resetRegs).din = s.din := rfl
@[simp] theorem State.resetRegs_resp (s : State) : (s.resetRegs).resp = s.resp := rfl
@[simp] theorem State.resetRegs_inbox (s : State) : (s.resetRegs).inbox = s.inbox := rfl
@[simp] theorem State.resetRegs_cfg (s : State) : (s.resetRegs).cfg = s.cfg := rfl

@[simp] theorem State.powerOn_state (s : State) (rest : List HostMove) : (s.powerOn rest).state = 0 := rfl
@[simp] theorem State.powerOn_fsm (s : State) (rest : List HostMove) : (s.powerOn rest).fsm = .idle := rfl
@[simp] theorem State.powerOn_rnd (s : State) (rest : List HostMove) : (s.powerOn rest).rnd = 0 := rfl
@[simp] theorem State.powerOn_blk (s : State) (rest : List HostMove) : (s.powerOn rest).blk = 0 := rfl
@[simp] theorem State.powerOn_nblk (s : State) (rest : List HostMove) : (s.powerOn rest).nblk = 0 := rfl
@[simp] theorem State.powerOn_sqz (s : State) (rest : List HostMove) : (s.powerOn rest).sqz = false := rfl
@[simp] theorem State.powerOn_pbuf (s : State) (rest : List HostMove) : (s.powerOn rest).pbuf = [] := rfl
@[simp] theorem State.powerOn_err (s : State) (rest : List HostMove) : (s.powerOn rest).err = .none := rfl
@[simp] theorem State.powerOn_cmd (s : State) (rest : List HostMove) : (s.powerOn rest).cmd = 0 := rfl
@[simp] theorem State.powerOn_din (s : State) (rest : List HostMove) : (s.powerOn rest).din = .none := rfl
@[simp] theorem State.powerOn_resp (s : State) (rest : List HostMove) : (s.powerOn rest).resp = none := rfl
@[simp] theorem State.powerOn_inbox (s : State) (rest : List HostMove) : (s.powerOn rest).inbox = rest := rfl
@[simp] theorem State.powerOn_cfg (s : State) (rest : List HostMove) : (s.powerOn rest).cfg = s.cfg := rfl

@[simp] theorem State.setState_state (s : State) (S : KState) : (s.setState S).state = S := rfl
@[simp] theorem State.setState_fsm (s : State) (S : KState) : (s.setState S).fsm = s.fsm := rfl
@[simp] theorem State.setState_rnd (s : State) (S : KState) : (s.setState S).rnd = s.rnd := rfl
@[simp] theorem State.setState_blk (s : State) (S : KState) : (s.setState S).blk = s.blk := rfl
@[simp] theorem State.setState_nblk (s : State) (S : KState) : (s.setState S).nblk = s.nblk := rfl
@[simp] theorem State.setState_sqz (s : State) (S : KState) : (s.setState S).sqz = s.sqz := rfl
@[simp] theorem State.setState_pbuf (s : State) (S : KState) : (s.setState S).pbuf = s.pbuf := rfl
@[simp] theorem State.setState_err (s : State) (S : KState) : (s.setState S).err = s.err := rfl
@[simp] theorem State.setState_cmd (s : State) (S : KState) : (s.setState S).cmd = s.cmd := rfl
@[simp] theorem State.setState_din (s : State) (S : KState) : (s.setState S).din = s.din := rfl
@[simp] theorem State.setState_resp (s : State) (S : KState) : (s.setState S).resp = s.resp := rfl
@[simp] theorem State.setState_inbox (s : State) (S : KState) : (s.setState S).inbox = s.inbox := rfl
@[simp] theorem State.setState_cfg (s : State) (S : KState) : (s.setState S).cfg = s.cfg := rfl

@[simp] theorem State.accept_state (s : State) (c : Command) (rest : List HostMove) : (s.accept c rest).state = s.state := rfl
@[simp] theorem State.accept_fsm (s : State) (c : Command) (rest : List HostMove) : (s.accept c rest).fsm = s.fsm := rfl
@[simp] theorem State.accept_rnd (s : State) (c : Command) (rest : List HostMove) : (s.accept c rest).rnd = s.rnd := rfl
@[simp] theorem State.accept_blk (s : State) (c : Command) (rest : List HostMove) : (s.accept c rest).blk = s.blk := rfl
@[simp] theorem State.accept_nblk (s : State) (c : Command) (rest : List HostMove) : (s.accept c rest).nblk = s.nblk := rfl
@[simp] theorem State.accept_sqz (s : State) (c : Command) (rest : List HostMove) : (s.accept c rest).sqz = s.sqz := rfl
@[simp] theorem State.accept_pbuf (s : State) (c : Command) (rest : List HostMove) : (s.accept c rest).pbuf = s.pbuf := rfl
@[simp] theorem State.accept_err (s : State) (c : Command) (rest : List HostMove) : (s.accept c rest).err = s.err := rfl
@[simp] theorem State.accept_cmd (s : State) (c : Command) (rest : List HostMove) : (s.accept c rest).cmd = c.word := rfl
@[simp] theorem State.accept_din (s : State) (c : Command) (rest : List HostMove) : (s.accept c rest).din = c.din := rfl
@[simp] theorem State.accept_resp (s : State) (c : Command) (rest : List HostMove) : (s.accept c rest).resp = none := rfl
@[simp] theorem State.accept_inbox (s : State) (c : Command) (rest : List HostMove) : (s.accept c rest).inbox = rest := rfl
@[simp] theorem State.accept_cfg (s : State) (c : Command) (rest : List HostMove) : (s.accept c rest).cfg = s.cfg := rfl

@[simp] theorem State.beginAbsorb_state (s : State) (blk : Bits) : (s.beginAbsorb blk).state = s.state := rfl
@[simp] theorem State.beginAbsorb_fsm (s : State) (blk : Bits) : (s.beginAbsorb blk).fsm = .xor := rfl
@[simp] theorem State.beginAbsorb_rnd (s : State) (blk : Bits) : (s.beginAbsorb blk).rnd = s.rnd := rfl
@[simp] theorem State.beginAbsorb_blk (s : State) (blk : Bits) : (s.beginAbsorb blk).blk = 0 := rfl
@[simp] theorem State.beginAbsorb_nblk (s : State) (blk : Bits) : (s.beginAbsorb blk).nblk = 1 := rfl
@[simp] theorem State.beginAbsorb_sqz (s : State) (blk : Bits) : (s.beginAbsorb blk).sqz = false := rfl
@[simp] theorem State.beginAbsorb_pbuf (s : State) (blk : Bits) : (s.beginAbsorb blk).pbuf = blk := rfl
@[simp] theorem State.beginAbsorb_err (s : State) (blk : Bits) : (s.beginAbsorb blk).err = s.err := rfl
@[simp] theorem State.beginAbsorb_cmd (s : State) (blk : Bits) : (s.beginAbsorb blk).cmd = s.cmd := rfl
@[simp] theorem State.beginAbsorb_din (s : State) (blk : Bits) : (s.beginAbsorb blk).din = s.din := rfl
@[simp] theorem State.beginAbsorb_resp (s : State) (blk : Bits) : (s.beginAbsorb blk).resp = s.resp := rfl
@[simp] theorem State.beginAbsorb_inbox (s : State) (blk : Bits) : (s.beginAbsorb blk).inbox = s.inbox := rfl
@[simp] theorem State.beginAbsorb_cfg (s : State) (blk : Bits) : (s.beginAbsorb blk).cfg = s.cfg := rfl

@[simp] theorem State.beginHash_state (s : State) : (s.beginHash).state = s.state := rfl
@[simp] theorem State.beginHash_fsm (s : State) : (s.beginHash).fsm = .pad := rfl
@[simp] theorem State.beginHash_rnd (s : State) : (s.beginHash).rnd = s.rnd := rfl
@[simp] theorem State.beginHash_blk (s : State) : (s.beginHash).blk = s.blk := rfl
@[simp] theorem State.beginHash_nblk (s : State) : (s.beginHash).nblk = s.nblk := rfl
@[simp] theorem State.beginHash_sqz (s : State) : (s.beginHash).sqz = s.sqz := rfl
@[simp] theorem State.beginHash_pbuf (s : State) : (s.beginHash).pbuf = s.pbuf := rfl
@[simp] theorem State.beginHash_err (s : State) : (s.beginHash).err = s.err := rfl
@[simp] theorem State.beginHash_cmd (s : State) : (s.beginHash).cmd = s.cmd := rfl
@[simp] theorem State.beginHash_din (s : State) : (s.beginHash).din = s.din := rfl
@[simp] theorem State.beginHash_resp (s : State) : (s.beginHash).resp = s.resp := rfl
@[simp] theorem State.beginHash_inbox (s : State) : (s.beginHash).inbox = s.inbox := rfl
@[simp] theorem State.beginHash_cfg (s : State) : (s.beginHash).cfg = s.cfg := rfl

@[simp] theorem State.padStep_state (s : State) (m : List Byte) : (s.padStep m).state = 0 := rfl
@[simp] theorem State.padStep_fsm (s : State) (m : List Byte) : (s.padStep m).fsm = .xor := rfl
@[simp] theorem State.padStep_rnd (s : State) (m : List Byte) : (s.padStep m).rnd = s.rnd := rfl
@[simp] theorem State.padStep_blk (s : State) (m : List Byte) : (s.padStep m).blk = 0 := rfl
@[simp] theorem State.padStep_nblk (s : State) (m : List Byte) : (s.padStep m).nblk = (pad (bytesToBits m)).length / 1088 := rfl
@[simp] theorem State.padStep_sqz (s : State) (m : List Byte) : (s.padStep m).sqz = true := rfl
@[simp] theorem State.padStep_pbuf (s : State) (m : List Byte) : (s.padStep m).pbuf = pad (bytesToBits m) := rfl
@[simp] theorem State.padStep_err (s : State) (m : List Byte) : (s.padStep m).err = s.err := rfl
@[simp] theorem State.padStep_cmd (s : State) (m : List Byte) : (s.padStep m).cmd = s.cmd := rfl
@[simp] theorem State.padStep_din (s : State) (m : List Byte) : (s.padStep m).din = s.din := rfl
@[simp] theorem State.padStep_resp (s : State) (m : List Byte) : (s.padStep m).resp = s.resp := rfl
@[simp] theorem State.padStep_inbox (s : State) (m : List Byte) : (s.padStep m).inbox = s.inbox := rfl
@[simp] theorem State.padStep_cfg (s : State) (m : List Byte) : (s.padStep m).cfg = s.cfg := rfl

@[simp] theorem State.xorStep_state (s : State) : (s.xorStep).state = xorRate s.state (blockAt s.pbuf s.blk) := rfl
@[simp] theorem State.xorStep_fsm (s : State) : (s.xorStep).fsm = .perm := rfl
@[simp] theorem State.xorStep_rnd (s : State) : (s.xorStep).rnd = 0 := rfl
@[simp] theorem State.xorStep_blk (s : State) : (s.xorStep).blk = s.blk := rfl
@[simp] theorem State.xorStep_nblk (s : State) : (s.xorStep).nblk = s.nblk := rfl
@[simp] theorem State.xorStep_sqz (s : State) : (s.xorStep).sqz = s.sqz := rfl
@[simp] theorem State.xorStep_pbuf (s : State) : (s.xorStep).pbuf = s.pbuf := rfl
@[simp] theorem State.xorStep_err (s : State) : (s.xorStep).err = s.err := rfl
@[simp] theorem State.xorStep_cmd (s : State) : (s.xorStep).cmd = s.cmd := rfl
@[simp] theorem State.xorStep_din (s : State) : (s.xorStep).din = s.din := rfl
@[simp] theorem State.xorStep_resp (s : State) : (s.xorStep).resp = s.resp := rfl
@[simp] theorem State.xorStep_inbox (s : State) : (s.xorStep).inbox = s.inbox := rfl
@[simp] theorem State.xorStep_cfg (s : State) : (s.xorStep).cfg = s.cfg := rfl

@[simp] theorem State.permNextRound_state (s : State) (S : KState) : (s.permNextRound S).state = S := rfl
@[simp] theorem State.permNextRound_fsm (s : State) (S : KState) : (s.permNextRound S).fsm = s.fsm := rfl
@[simp] theorem State.permNextRound_rnd (s : State) (S : KState) : (s.permNextRound S).rnd = s.rnd + 1 := rfl
@[simp] theorem State.permNextRound_blk (s : State) (S : KState) : (s.permNextRound S).blk = s.blk := rfl
@[simp] theorem State.permNextRound_nblk (s : State) (S : KState) : (s.permNextRound S).nblk = s.nblk := rfl
@[simp] theorem State.permNextRound_sqz (s : State) (S : KState) : (s.permNextRound S).sqz = s.sqz := rfl
@[simp] theorem State.permNextRound_pbuf (s : State) (S : KState) : (s.permNextRound S).pbuf = s.pbuf := rfl
@[simp] theorem State.permNextRound_err (s : State) (S : KState) : (s.permNextRound S).err = s.err := rfl
@[simp] theorem State.permNextRound_cmd (s : State) (S : KState) : (s.permNextRound S).cmd = s.cmd := rfl
@[simp] theorem State.permNextRound_din (s : State) (S : KState) : (s.permNextRound S).din = s.din := rfl
@[simp] theorem State.permNextRound_resp (s : State) (S : KState) : (s.permNextRound S).resp = s.resp := rfl
@[simp] theorem State.permNextRound_inbox (s : State) (S : KState) : (s.permNextRound S).inbox = s.inbox := rfl
@[simp] theorem State.permNextRound_cfg (s : State) (S : KState) : (s.permNextRound S).cfg = s.cfg := rfl

@[simp] theorem State.permNextBlock_state (s : State) (S : KState) : (s.permNextBlock S).state = S := rfl
@[simp] theorem State.permNextBlock_fsm (s : State) (S : KState) : (s.permNextBlock S).fsm = .xor := rfl
@[simp] theorem State.permNextBlock_rnd (s : State) (S : KState) : (s.permNextBlock S).rnd = 0 := rfl
@[simp] theorem State.permNextBlock_blk (s : State) (S : KState) : (s.permNextBlock S).blk = s.blk + 1 := rfl
@[simp] theorem State.permNextBlock_nblk (s : State) (S : KState) : (s.permNextBlock S).nblk = s.nblk := rfl
@[simp] theorem State.permNextBlock_sqz (s : State) (S : KState) : (s.permNextBlock S).sqz = s.sqz := rfl
@[simp] theorem State.permNextBlock_pbuf (s : State) (S : KState) : (s.permNextBlock S).pbuf = s.pbuf := rfl
@[simp] theorem State.permNextBlock_err (s : State) (S : KState) : (s.permNextBlock S).err = s.err := rfl
@[simp] theorem State.permNextBlock_cmd (s : State) (S : KState) : (s.permNextBlock S).cmd = s.cmd := rfl
@[simp] theorem State.permNextBlock_din (s : State) (S : KState) : (s.permNextBlock S).din = s.din := rfl
@[simp] theorem State.permNextBlock_resp (s : State) (S : KState) : (s.permNextBlock S).resp = s.resp := rfl
@[simp] theorem State.permNextBlock_inbox (s : State) (S : KState) : (s.permNextBlock S).inbox = s.inbox := rfl
@[simp] theorem State.permNextBlock_cfg (s : State) (S : KState) : (s.permNextBlock S).cfg = s.cfg := rfl

@[simp] theorem State.permToSqueeze_state (s : State) (S : KState) : (s.permToSqueeze S).state = S := rfl
@[simp] theorem State.permToSqueeze_fsm (s : State) (S : KState) : (s.permToSqueeze S).fsm = .squeeze := rfl
@[simp] theorem State.permToSqueeze_rnd (s : State) (S : KState) : (s.permToSqueeze S).rnd = 0 := rfl
@[simp] theorem State.permToSqueeze_blk (s : State) (S : KState) : (s.permToSqueeze S).blk = 0 := rfl
@[simp] theorem State.permToSqueeze_nblk (s : State) (S : KState) : (s.permToSqueeze S).nblk = s.nblk := rfl
@[simp] theorem State.permToSqueeze_sqz (s : State) (S : KState) : (s.permToSqueeze S).sqz = s.sqz := rfl
@[simp] theorem State.permToSqueeze_pbuf (s : State) (S : KState) : (s.permToSqueeze S).pbuf = s.pbuf := rfl
@[simp] theorem State.permToSqueeze_err (s : State) (S : KState) : (s.permToSqueeze S).err = s.err := rfl
@[simp] theorem State.permToSqueeze_cmd (s : State) (S : KState) : (s.permToSqueeze S).cmd = s.cmd := rfl
@[simp] theorem State.permToSqueeze_din (s : State) (S : KState) : (s.permToSqueeze S).din = s.din := rfl
@[simp] theorem State.permToSqueeze_resp (s : State) (S : KState) : (s.permToSqueeze S).resp = s.resp := rfl
@[simp] theorem State.permToSqueeze_inbox (s : State) (S : KState) : (s.permToSqueeze S).inbox = s.inbox := rfl
@[simp] theorem State.permToSqueeze_cfg (s : State) (S : KState) : (s.permToSqueeze S).cfg = s.cfg := rfl

@[simp] theorem State.permFinish_state (s : State) (S : KState) : (s.permFinish S).state = S := rfl
@[simp] theorem State.permFinish_fsm (s : State) (S : KState) : (s.permFinish S).fsm = .idle := rfl
@[simp] theorem State.permFinish_rnd (s : State) (S : KState) : (s.permFinish S).rnd = 0 := rfl
@[simp] theorem State.permFinish_blk (s : State) (S : KState) : (s.permFinish S).blk = 0 := rfl
@[simp] theorem State.permFinish_nblk (s : State) (S : KState) : (s.permFinish S).nblk = 0 := rfl
@[simp] theorem State.permFinish_sqz (s : State) (S : KState) : (s.permFinish S).sqz = s.sqz := rfl
@[simp] theorem State.permFinish_pbuf (s : State) (S : KState) : (s.permFinish S).pbuf = [] := rfl
@[simp] theorem State.permFinish_err (s : State) (S : KState) : (s.permFinish S).err = s.err := rfl
@[simp] theorem State.permFinish_cmd (s : State) (S : KState) : (s.permFinish S).cmd = 0 := rfl
@[simp] theorem State.permFinish_din (s : State) (S : KState) : (s.permFinish S).din = .none := rfl
@[simp] theorem State.permFinish_resp (s : State) (S : KState) : (s.permFinish S).resp = some { word := respWord .ok 0 (opcField s.cmd), dout := .none } := rfl
@[simp] theorem State.permFinish_inbox (s : State) (S : KState) : (s.permFinish S).inbox = s.inbox := rfl
@[simp] theorem State.permFinish_cfg (s : State) (S : KState) : (s.permFinish S).cfg = s.cfg := rfl

@[simp] theorem State.squeezeStep_state (s : State) : (s.squeezeStep).state = s.state := rfl
@[simp] theorem State.squeezeStep_fsm (s : State) : (s.squeezeStep).fsm = .idle := rfl
@[simp] theorem State.squeezeStep_rnd (s : State) : (s.squeezeStep).rnd = s.rnd := rfl
@[simp] theorem State.squeezeStep_blk (s : State) : (s.squeezeStep).blk = s.blk := rfl
@[simp] theorem State.squeezeStep_nblk (s : State) : (s.squeezeStep).nblk = 0 := rfl
@[simp] theorem State.squeezeStep_sqz (s : State) : (s.squeezeStep).sqz = false := rfl
@[simp] theorem State.squeezeStep_pbuf (s : State) : (s.squeezeStep).pbuf = [] := rfl
@[simp] theorem State.squeezeStep_err (s : State) : (s.squeezeStep).err = s.err := rfl
@[simp] theorem State.squeezeStep_cmd (s : State) : (s.squeezeStep).cmd = 0 := rfl
@[simp] theorem State.squeezeStep_din (s : State) : (s.squeezeStep).din = .none := rfl
@[simp] theorem State.squeezeStep_resp (s : State) : (s.squeezeStep).resp = some { word := respWord .ok 0 (opcField s.cmd), dout := .bytes (squeezeDigest s.state) } := rfl
@[simp] theorem State.squeezeStep_inbox (s : State) : (s.squeezeStep).inbox = s.inbox := rfl
@[simp] theorem State.squeezeStep_cfg (s : State) : (s.squeezeStep).cfg = s.cfg := rfl

end Sys2Proof.Machine
end

