-- ==== Sys2Proof/Laws/Ops.lean ====
section
/-! SUPPORT. What each shared operation can do, said once: the checks of rule R153, the requirement of an operand check, and
the cases of a step. -/

namespace Sys2Proof.Machine

theorem State.inIdle_idle {s : State} (h : s.fsm = .idle) (go : Result) : s.inIdle go = go := by
  simp [State.inIdle, h]

theorem State.inIdle_fault {s : State} (h : s.fsm = .fault) (go : Result) :
    s.inIdle go = .next s.answerFaulted := by simp [State.inIdle, h]

theorem State.inIdle_busy {s : State} (h : s.fsm.busy = true) (go : Result) :
    s.inIdle go = .refused .commandInProgress := by
  unfold State.inIdle
  cases hf : s.fsm <;> simp_all [Fsm.busy]

theorem State.takeNone_of {s : State} (h : s.din = .none) (go : Result) : s.takeNone go = go := by
  simp [State.takeNone, h]

theorem State.takeNone_kind {s : State} (h : s.din.kind ≠ .none) (go : Result) :
    s.takeNone go = .next (s.raise .operandKind) := by
  unfold State.takeNone
  cases hd : s.din <;> simp_all [Data.kind]

theorem State.takeBytes_of {s : State} {m : List Byte} (h : s.din = .bytes m) (go : List Byte → Result) :
    s.takeBytes go = go m := by simp [State.takeBytes, h]

theorem State.takeBytes_kind {s : State} (h : s.din.kind ≠ .bytes) (go : List Byte → Result) :
    s.takeBytes go = .next (s.raise .operandKind) := by
  unfold State.takeBytes
  cases hd : s.din <;> simp_all [Data.kind]

theorem State.takeBits_of {s : State} {b : Bits} (h : s.din = .bits b) (go : Bits → Result) :
    s.takeBits go = go b := by simp [State.takeBits, h]

theorem State.takeBits_kind {s : State} (h : s.din.kind ≠ .bits) (go : Bits → Result) :
    s.takeBits go = .next (s.raise .operandKind) := by
  unfold State.takeBits
  cases hd : s.din <;> simp_all [Data.kind]

theorem State.takeLane_of {s : State} {v : Lane} (h : s.din = .lane v) (go : Lane → Result) :
    s.takeLane go = go v := by simp [State.takeLane, h]

theorem State.takeLane_kind {s : State} (h : s.din.kind ≠ .lane) (go : Lane → Result) :
    s.takeLane go = .next (s.raise .operandKind) := by
  unfold State.takeLane
  cases hd : s.din <;> simp_all [Data.kind]

theorem State.takeState_of {s : State} {t : KState} (h : s.din = .state t) (go : KState → Result) :
    s.takeState go = go t := by simp [State.takeState, h]

theorem State.takeState_kind {s : State} (h : s.din.kind ≠ .state) (go : KState → Result) :
    s.takeState go = .next (s.raise .operandKind) := by
  unfold State.takeState
  cases hd : s.din <;> simp_all [Data.kind]

theorem State.require_true (s : State) (code : ErrCode) (go : Result) : s.require true code go = go := rfl

theorem State.require_false (s : State) (code : ErrCode) (go : Result) :
    s.require false code go = .next (s.raise code) := rfl

/-- The cases of a step: a power-on reset, a micro-step of a running sequence, a whole command, or waiting. -/
theorem step_cases (s : State) :
    (∃ rest, s.inbox = .powerOnReset :: rest ∧ step s = .next (s.powerOn rest)) ∨
    ((∀ rest, s.inbox ≠ .powerOnReset :: rest) ∧ s.fsm.busy = true ∧ step s = microStep s) ∨
    (∃ c rest, s.inbox = .command c :: rest ∧ s.fsm.busy = false ∧ step s = runCommand (s.accept c rest)) ∨
    (s.inbox = [] ∧ s.fsm.busy = false ∧ step s = .next s) := by
  unfold step
  cases hi : s.inbox with
  | nil => cases hb : s.fsm.busy <;> simp
  | cons move rest =>
    cases move with
    | powerOnReset => simp
    | command c => cases hb : s.fsm.busy <;> simp

end Sys2Proof.Machine
end

