-- ==== Sys2Proof/Laws/PerInstr.lean ====
section
/-! SUPPORT. What is said of every command as syntax, one lemma per constructor of Instr. -/

/-- The fields of the word a command encodes to (rule R51): OPC is its operation code, IR its round index and RSV is 0. -/
def Sys2Proof.Laws.WordFields.Statement (i : Sys2Proof.Instr) : Prop :=
  Sys2Proof.opcField (Sys2Proof.encode i) = i.opcode ∧
  Sys2Proof.irField (Sys2Proof.encode i) = i.irBits ∧
  Sys2Proof.rsvField (Sys2Proof.encode i) = 0

namespace Sys2Proof.Laws.WordFields

/-- The fields of any word laid out as R51 lays it out. -/
theorem fields_of_layout (ir : BitVec 5) (opc : BitVec 8) :
    opcField ((0 : BitVec 3) ++ ir ++ opc) = opc ∧ irField ((0 : BitVec 3) ++ ir ++ opc) = ir ∧
      rsvField ((0 : BitVec 3) ++ ir ++ opc) = 0 := by
  refine ⟨?_, ?_, ?_⟩ <;> apply BitVec.eq_of_getLsbD_eq <;> intro k hk <;>
    simp only [opcField, irField, rsvField, BitVec.getLsbD_extractLsb', BitVec.getLsbD_append, hk] <;>
    (interval_cases k <;> simp)

theorem sysNop : Statement .sysNop := fields_of_layout _ _
theorem sysReset : Statement .sysReset := fields_of_layout _ _
theorem sysStatus : Statement .sysStatus := fields_of_layout _ _
theorem cvB2bits : Statement .cvB2bits := fields_of_layout _ _
theorem cvBits2b : Statement .cvBits2b := fields_of_layout _ _
theorem cvLane2bits : Statement .cvLane2bits := fields_of_layout _ _
theorem cvBits2lane : Statement .cvBits2lane := fields_of_layout _ _
theorem kfRound (ir : Nat) : Statement (.kfRound ir) := fields_of_layout _ _
theorem kfPermute : Statement .kfPermute := fields_of_layout _ _
theorem pdPad : Statement .pdPad := fields_of_layout _ _
theorem spInit : Statement .spInit := fields_of_layout _ _
theorem spAbsorb : Statement .spAbsorb := fields_of_layout _ _
theorem spSqueeze : Statement .spSqueeze := fields_of_layout _ _
theorem spHash : Statement .spHash := fields_of_layout _ _

end Sys2Proof.Laws.WordFields
end

