-- ==== Sys2Proof/Laws/Sequencer.lean ====
section
/-! SUPPORT. The cases of one micro-step (rule R125 of 43_sponge.md), said once: later proofs about micro-steps take these
cases and never unfold `microStep`. -/

namespace Sys2Proof.Machine

/-- The rows of R125 with FSM = PERM. -/
theorem permStep_cases {s t : State} (h : permStep s = .next t) :
    ∃ hr : s.rnd.toNat < 24,
      (s.rnd.toNat < 23 ∧ t = s.permNextRound (roundFunction s.state ⟨s.rnd.toNat, hr⟩)) ∨
      (s.rnd.toNat = 23 ∧ s.blk + 1 < s.nblk ∧
        t = s.permNextBlock (roundFunction s.state ⟨s.rnd.toNat, hr⟩)) ∨
      (s.rnd.toNat = 23 ∧ s.blk + 1 = s.nblk ∧ s.sqz = true ∧
        t = s.permToSqueeze (roundFunction s.state ⟨s.rnd.toNat, hr⟩)) ∨
      (s.rnd.toNat = 23 ∧ s.blk + 1 = s.nblk ∧ s.sqz = false ∧
        t = s.permFinish (roundFunction s.state ⟨s.rnd.toNat, hr⟩)) := by
  unfold permStep at h
  by_cases hr : s.rnd.toNat < 24
  · refine ⟨hr, ?_⟩
    rw [dif_pos hr] at h
    generalize roundFunction s.state ⟨s.rnd.toNat, hr⟩ = S at h ⊢
    by_cases h23 : s.rnd.toNat < 23
    · rw [if_pos h23] at h
      exact .inl ⟨h23, (Host.Outcome.next.inj h).symm⟩
    · have heq : s.rnd.toNat = 23 := by omega
      rw [if_neg h23] at h
      by_cases hlt : s.blk + 1 < s.nblk
      · rw [if_pos hlt] at h
        exact .inr (.inl ⟨heq, hlt, (Host.Outcome.next.inj h).symm⟩)
      · rw [if_neg hlt] at h
        by_cases hlast : s.blk + 1 = s.nblk
        · rw [if_pos hlast] at h
          cases hq : s.sqz with
          | true =>
            rw [hq, if_pos rfl] at h
            exact .inr (.inr (.inl ⟨heq, hlast, rfl, (Host.Outcome.next.inj h).symm⟩))
          | false =>
            rw [hq, if_neg (by simp)] at h
            exact .inr (.inr (.inr ⟨heq, hlast, rfl, (Host.Outcome.next.inj h).symm⟩))
        · rw [if_neg hlast] at h
          cases h
  · rw [dif_neg hr] at h
    cases h

/-- The rows of R125: what one micro-step can do. -/
theorem microStep_cases {s t : State} (h : microStep s = .next t) :
    (s.fsm = .pad ∧ ∃ m, s.din = .bytes m ∧ t = s.padStep m) ∨
    (s.fsm = .xor ∧ (blockAt s.pbuf s.blk).length = 1088 ∧ t = s.xorStep) ∨
    (s.fsm = .perm ∧ permStep s = .next t) ∨
    (s.fsm = .squeeze ∧ t = s.squeezeStep) := by
  unfold microStep at h
  cases hf : s.fsm with
  | idle => rw [hf] at h; cases h
  | fault => rw [hf] at h; cases h
  | pad =>
    rw [hf] at h
    cases hd : s.din <;> rw [hd] at h <;> first | cases h; done | skip
    exact .inl ⟨rfl, _, rfl, (Host.Outcome.next.inj h).symm⟩
  | xor =>
    rw [hf] at h
    by_cases hl : (blockAt s.pbuf s.blk).length = 1088
    · simp only [if_pos hl] at h
      exact .inr (.inl ⟨rfl, hl, (Host.Outcome.next.inj h).symm⟩)
    · simp only [if_neg hl] at h
      cases h
  | perm => rw [hf] at h; exact .inr (.inr (.inl ⟨rfl, h⟩))
  | squeeze =>
    rw [hf] at h
    exact .inr (.inr (.inr ⟨rfl, (Host.Outcome.next.inj h).symm⟩))

/-- A micro-step leaves the host's moves and the build's parameters alone. -/
theorem microStep_frame {s t : State} (h : microStep s = .next t) : t.inbox = s.inbox ∧ t.cfg = s.cfg := by
  rcases microStep_cases h with ⟨-, m, -, rfl⟩ | ⟨-, -, rfl⟩ | ⟨-, hp⟩ | ⟨-, rfl⟩
  · simp only [State.padStep_inbox, State.padStep_cfg, and_self]
  · simp only [State.xorStep_inbox, State.xorStep_cfg, and_self]
  · obtain ⟨-, ⟨-, rfl⟩ | ⟨-, -, rfl⟩ | ⟨-, -, -, rfl⟩ | ⟨-, -, -, rfl⟩⟩ := permStep_cases hp
    · simp only [State.permNextRound_inbox, State.permNextRound_cfg, and_self]
    · simp only [State.permNextBlock_inbox, State.permNextBlock_cfg, and_self]
    · simp only [State.permToSqueeze_inbox, State.permToSqueeze_cfg, and_self]
    · simp only [State.permFinish_inbox, State.permFinish_cfg, and_self]
  · simp only [State.squeezeStep_inbox, State.squeezeStep_cfg, and_self]

end Sys2Proof.Machine
end

