-- ==== Sys2Proof/Machine/Assembler.lean ====
section
/-! DEFINITION. The assembler's notation (rule R56 of 30_encoding.md): one command per line,
`MNEMONIC [ir] [operand]`, a result after `->`. The engine never reads it. Where R56 leaves a detail open (the case of hex
digits, what stands between lanes) the form is that of the examples of 95_test_vectors.md (log 10). -/

namespace Sys2Proof.Machine

/-- The digit of a nibble in lower case, as byte strings are written (R56, D17). -/
def lowerDigit (n : BitVec 4) : Char :=
  ['0', '1', '2', '3', '4', '5', '6', '7', '8', '9', 'a', 'b', 'c', 'd', 'e', 'f'].getD n.toNat '0'

/-- The digit of a nibble in upper case, as lanes and words are written. -/
def upperDigit (n : BitVec 4) : Char :=
  ['0', '1', '2', '3', '4', '5', '6', '7', '8', '9', 'A', 'B', 'C', 'D', 'E', 'F'].getD n.toNat '0'

/-- A byte, high nibble first (D17). -/
def byteText (b : Byte) : List Char := [lowerDigit (b.extractLsb' 4 4), lowerDigit (b.extractLsb' 0 4)]

/-- `0x` and `digits` hex digits, most significant first (R9, R56). -/
def hexText {n : Nat} (digits : Nat) (v : BitVec n) : List Char :=
  '0' :: 'x' :: (List.range digits).reverse.map fun i => upperDigit (v.extractLsb' (4 * i) 4)

/-- A word of text between double quotes after its kind's name. -/
def quoted (kind : String) (text : List Char) : List Char := kind.toList ++ '"' :: text ++ ['"']

/-- An operand or result, written by kind (R56); no data is written as nothing. -/
def dataText : Data → List Char
  | .none => []
  | .bytes m => quoted "bytes" (m.flatMap byteText)
  | .bits s => quoted "bits" (s.map fun b => if b then '1' else '0')
  | .lane v => "lane ".toList ++ hexText 16 v
  | .state t =>
    "state[".toList ++ List.intercalate ", ".toList (grid.map fun p => hexText 16 (lane t p.1 p.2)) ++ "]".toList
  | .word w => "word ".toList ++ hexText 4 w

/-- A blank and the text, or nothing where there is no text. -/
def field (text : List Char) : List Char := if text.isEmpty then [] else ' ' :: text

/-- The round index, "a decimal 0..31" that "appears only for `KF.ROUND`" (R56). -/
def roundText : Instr → List Char
  | .kfRound ir => (Nat.toDigits 10 ir)
  | .sysNop | .sysReset | .sysStatus | .cvB2bits | .cvBits2b | .cvLane2bits | .cvBits2lane
  | .kfPermute | .pdPad | .spInit | .spAbsorb | .spSqueeze | .spHash => []

/-- A command line (R56). -/
def assemblerLine (i : Instr) (operand : Data) : List Char :=
  i.mnemonic.toList ++ field (roundText i) ++ field (dataText operand)

/-- A command line with its result after `->` (R56). -/
def assemblerLineWithResult (i : Instr) (operand result : Data) : List Char :=
  assemblerLine i operand ++ " -> ".toList ++ dataText result

end Sys2Proof.Machine
end

