-- ==== Sys2Proof/Tests/Slice0.lean ====
section
/-! SUPPORT. The model's own tests. Expected values come from the spec: the encodings of rule R53 (30_encoding.md) written
out bit by bit, and the vectors of 95_test_vectors.md. The second part holds, for every statement with hypotheses, states and
operands that meet them. -/

namespace Sys2Proof.Tests

open Sys2Proof Sys2Proof.Machine

-- One theorem after the other: each waiting thread would claim its own stack under the check's memory limit.
set_option Elab.async false

/-! ### Helpers -/

/-- The next state of an outcome, if there is one. -/
def nextState : Result → Option State
  | .next t => some t
  | .fault _ => none
  | .refused _ => none

/-- The response word and the data an outcome's next state answers. -/
def answer (r : Result) : Option (Word16 × Data) :=
  (nextState r).bind fun t => t.resp.map fun a => (a.word, a.dout)

/-- The engine after reset with one command presented. -/
def present (w : Word16) (d : Data) : State := { State.reset with inbox := [.command { word := w, din := d }] }

/-- What one command answers after reset. -/
def asked (w : Word16) (d : Data) : Option (Word16 × Data) := answer (step (present w d))

/-- FSM and ERR after one command presented after reset. -/
def leaves (w : Word16) (d : Data) : Option (Fsm × ErrCode) :=
  (nextState (step (present w d))).map fun t => (t.fsm, t.err)

/-- `n` bytes, the first one the most significant of `v`, as hex strings are printed (D17). -/
def bytesOf (n v : Nat) : List Byte := (List.range n).map fun i => BitVec.ofNat 8 (v / 256 ^ (n - 1 - i))

/-- The state with the given lanes, lane 0 first. -/
def ofLaneList (l : List Lane) : KState := ofLanes fun x y => l.getD (laneIndex x y).val 0

/-- The lanes of a state, lane 0 first. -/
def laneList (S : KState) : List Lane := grid.map fun p => lane S p.1 p.2

/-- A bit sequence from 0 and 1 digits. -/
def bitsOf (digits : List Nat) : Bits := digits.map (· == 1)

/-- A state with the command `w`, `d` captured, between commands. -/
def holding (w : Word16) (d : Data) : State := { State.reset with cmd := w, din := d }

/-- A state in FAULT with the command captured. -/
def faultedWith (w : Word16) (d : Data) : State := { holding w d with fsm := .fault, err := .blockLength }

/-- A build of at most 135 message bytes, one block, so that 1-bit counters suffice (R8). -/
def oneBlockBuild : Config := { maxMsgBytes := some 135, blkWidth := some 1 }

/-- A block of zeros. -/
def zeroBlock : Bits := List.replicate 1088 false

/-- A state in XOR: SP.ABSORB accepted. -/
def inXor : State := (holding 0x0041 (.bits zeroBlock)).beginAbsorb zeroBlock

/-- A state in PERM at round `r`, block 0 of `k` blocks, at the end of which a squeeze follows or not. -/
def inPerm (r : BitVec 5) (k : Nat) (q : Bool) : State :=
  { holding 0x0041 .none with fsm := .perm, rnd := r, nblk := k, sqz := q, pbuf := List.replicate (1088 * k) false }

/-- A state in PAD: SP.HASH of the empty message accepted. -/
def inPad : State := (holding 0x0043 (.bytes [])).beginHash

/-- A state in SQUEEZE. -/
def inSqueeze : State :=
  { holding 0x0043 (.bytes []) with fsm := .squeeze, nblk := 1, sqz := true, pbuf := zeroBlock }

/-! ### Well-formedness -/

/-- The one check of WellFormed: a round index past the IR field is refused; 31 is not. -/
theorem test_wf_roundIndex : (Instr.kfRound 32).wf = false ∧ (Instr.kfRound 31).wf = true := by decide

/-! ### Decoding: words written out from the encodings of R53, bit 15 first -/

theorem test_decode_system :
    decode 0b0000000000000000 = .ok .sysNop ∧ decode 0b0000000000000001 = .ok .sysReset ∧
    decode 0b0000000000000010 = .ok .sysStatus := by decide

theorem test_decode_converter :
    decode 0b0000000000010000 = .ok .cvB2bits ∧ decode 0b0000000000010001 = .ok .cvBits2b ∧
    decode 0b0000000000010010 = .ok .cvLane2bits ∧ decode 0b0000000000010011 = .ok .cvBits2lane := by decide

theorem test_decode_permutation :
    decode 0b0000000000100000 = .ok (.kfRound 0) ∧ decode 0b0001011100100000 = .ok (.kfRound 23) ∧
    decode 0b0001111100100000 = .ok (.kfRound 31) ∧ decode 0b0000000000100001 = .ok .kfPermute := by decide

theorem test_decode_padding_sponge :
    decode 0b0000000000110000 = .ok .pdPad ∧ decode 0b0000000001000000 = .ok .spInit ∧
    decode 0b0000000001000001 = .ok .spAbsorb ∧ decode 0b0000000001000010 = .ok .spSqueeze ∧
    decode 0b0000000001000011 = .ok .spHash := by decide

/-- R54 (a), (b), (c), at the ends of the unassigned ranges. -/
theorem test_decode_illegal :
    decode 0x0003 = .error .unassignedOpcode ∧ decode 0x000F = .error .unassignedOpcode ∧
    decode 0x0014 = .error .unassignedOpcode ∧ decode 0x0022 = .error .unassignedOpcode ∧
    decode 0x0031 = .error .unassignedOpcode ∧ decode 0x00FF = .error .unassignedOpcode ∧
    decode 0x8040 = .error .reservedBits ∧ decode 0x2020 = .error .reservedBits ∧
    decode 0x0141 = .error .roundIndexBits := by decide

/-- The rows of the opcode table do not overlap. -/
theorem test_opcodeTable_unambiguous :
    opcodeTable.Pairwise fun a b => a.pattern &&& b.mask ≠ b.pattern &&& a.mask := by decide

theorem test_decodeTableWord :
    decodeTableWord 16 0x1720 = some (.kfRound 23) ∧ decodeTableWord 16 0x0043 = some .spHash ∧
    decodeTableWord 16 0x0141 = none := by decide

/-! ### Responses of 95_test_vectors.md, sections 2, 6 and 7 -/

theorem test_sysNop : asked 0x0000 .none = some (0x0000, .none) := by decide +kernel

theorem test_sysNop_kind : leaves 0x0000 (.bytes []) = some (.fault, .operandKind) := by decide +kernel

theorem test_sysReset : asked 0x0001 (.bits [true]) = some (0x0100, .none) := by decide +kernel

theorem test_sysReset_leaves_fault :
    (nextState (exec .sysReset (faultedWith 0x0001 .none))).map (fun t => (t.fsm, t.err, t.resp.map (·.word))) =
      some (.idle, .none, some 0x0100) := by decide +kernel

theorem test_sysStatus : asked 0x0002 .none = some (0x0200, .word 0x0000) := by decide +kernel

/-- After `SP.ABSORB bits(0^1087)`: word 0x0017; a wrong operand is ignored in FAULT (R141). -/
theorem test_sysStatus_fault :
    answer (exec .sysStatus (faultedWith 0x0002 (.lane 0))) = some (0x0200, .word 0x0017) := by decide +kernel

theorem test_cvB2bits :
    asked 0x0010 (.bytes [0x01, 0x80]) =
      some (0x1000, .bits (bitsOf [1, 0, 0, 0, 0, 0, 0, 0, 0, 0, 0, 0, 0, 0, 0, 1])) ∧
    asked 0x0010 (.bytes [0xA5]) = some (0x1000, .bits (bitsOf [1, 0, 1, 0, 0, 1, 0, 1])) := by decide +kernel

theorem test_cvBits2b :
    asked 0x0011 (.bits (bitsOf [1, 1, 0, 0, 0, 0, 0, 0, 0, 0, 0, 0, 0, 0, 0, 1])) =
      some (0x1100, .bytes [0x03, 0x80]) := by decide +kernel

theorem test_cvBits2b_seven_bits : asked 0x0011 (.bits (bitsOf [1, 0, 0, 0, 0, 0, 0])) = some (0x1121, .none) := by
  decide +kernel

theorem test_cvLane2bits :
    asked 0x0012 (.lane 0x0000000000008082) =
      some (0x1200, .bits ((List.range 64).map fun z => z == 1 || z == 7 || z == 15)) := by decide +kernel

theorem test_cvBits2lane :
    asked 0x0013 (.bits (bytesToBits [0, 1, 2, 3, 4, 5, 6, 7])) = some (0x1300, .lane 0x0706050403020100) := by
  decide +kernel

theorem test_cvBits2lane_refused :
    asked 0x0013 (.bits (List.replicate 63 false)) = some (0x1361, .none) ∧
    asked 0x0013 (.lane 0) = some (0x1352, .none) := by decide +kernel

/-- The second line of program 4: `KF.ROUND 1` on the state with lane 0 = 1. -/
theorem test_kfRound :
    asked 0x0120 (.state 1) = some (0x2000, .state (ofLaneList [
      0x0000000000008083, 0x0000100000000000, 0x0000000000008000, 0x0000000000000001, 0x0000100000008000,
      0, 0x0000200000200000, 0, 0x0000200000000000, 0x0000000000200000,
      0x0000000000000002, 0x0000000000000200, 0, 0x0000000000000202, 0,
      0x0000000010000400, 0, 0x0000000000000400, 0x0000000010000000, 0,
      0x0000010000000000, 0, 0x0000010000000004, 0, 0x0000000000000004])) := by decide +kernel

/-- ROUND_INDEX beats OPERAND_KIND; ILLEGAL_OPCODE beats ROUND_INDEX. -/
theorem test_kfRound_refused :
    asked 0x1820 (.state 0) = some (0x2042, .none) ∧ asked 0x1E20 (.bits []) = some (0x2042, .none) ∧
    asked 0x2020 (.state 0) = some (0x2032, .none) := by decide +kernel

/-- Section 3: KeccakF of the state whose lane i holds the value i, and lane 0 of KeccakF of the zero state. -/
theorem test_kfPermute :
    asked 0x0021 (.state (ofLaneList ((List.range 25).map (BitVec.ofNat 64)))) = some (0x2100, .state (ofLaneList [
      0x8374B05252ED8115, 0x1DF7A676B6569400, 0xF765194B8A51797D, 0x20477B43D1760545, 0xD15F8BA4F3F6606A,
      0xA1D7144F7C8DD493, 0x30D193965138FD3F, 0x487E9472951BE3BE, 0x0CF3A858CBDA7A5A, 0x2FE54E389BB17F88,
      0x0B7338DE0D9F268F, 0x55EFDFF58B256D7F, 0xC8353E94EB2C3E6A, 0x2E2AF6948C901F11, 0xE873DE0CCA309DA6,
      0xF7AFC26C944D31E2, 0xA0F5EA808CC415D7, 0x53F531437E3ED8CF, 0x777F1F3B43A4D221, 0xFD0CA63CB499E985,
      0xD4C055C0C5D12330, 0xA72FE58AA6E0A7DF, 0x421AF5937C9948A3, 0x5E16103071340888, 0xD153F43A297E4A33])) ∧
    lane (keccakF 0) 0 0 = 0xF1258F7940E1DDE7 := by
  decide +kernel

theorem test_kfPermute_kind : asked 0x0021 (.bits []) = some (0x2152, .none) := by decide +kernel

/-- `PD.PAD` of "abc": `61 62 63 01 00 … 00 80`. -/
theorem test_pdPad :
    asked 0x0030 (.bits (bytesToBits [0x61, 0x62, 0x63])) =
      some (0x3000, .bits (bytesToBits ([0x61, 0x62, 0x63, 0x01] ++ List.replicate 131 0x00 ++ [0x80]))) := by
  decide +kernel

theorem test_pdPad_refused : asked 0x0030 (.bits (List.replicate 1084 false)) = some (0x3021, .none) := by
  decide +kernel

theorem test_spInit :
    (nextState (exec .spInit { holding 0x0040 .none with state := 5 })).map (fun t => (t.state, t.fsm)) =
      some (0, .idle) := by decide +kernel

/-- Section 5, S1: `SP.INIT; SP.ABSORB bits(pad(""))`, the 25 lanes of STATE. -/
theorem test_spAbsorb :
    (nextState (step (present 0x0041 (.bits (true :: List.replicate 1086 false ++ [true]))))).map
      (fun t => laneList t.state) = some [
      0x3C23F7860146D2C5, 0xC003C7DCB27D7E92, 0x3B2782CA53B600E5, 0x70A4855D04D8FA7B, 0x74A97CD82C9ABB3D,
      0xCB9B1161ECB0A2B9, 0x1F2211C4C0F9ED5C, 0x820DC6175FA24161, 0x81BABFBCAB8046D2, 0xB1D551B7242B765B,
      0x3CF26D5EBA2553E8, 0x3BCE6A98FE5B7210, 0xBA7D9FA73545D2A2, 0xFA0D3CD3B03B15BB, 0x3BFED7EB12C7CE09,
      0xEB829C854E19A949, 0x1B5D1A6545A611FF, 0x064146F400E16B72, 0xFE8734E16471AB9F, 0x9C3088BDEEBB0936,
      0xDEE8B8ECA7B2ACBA, 0x163B62B71DCF4521, 0x6B571B9910726D91, 0xB7FA22CF622318BE, 0xA3FE1AF7779FAFD7] := by
  decide +kernel

theorem test_spAbsorb_refused :
    asked 0x0041 (.bits (List.replicate 1087 false)) = some (0x4111, .none) ∧
    leaves 0x0041 (.bits (List.replicate 1089 false)) = some (.fault, .blockLength) ∧
    asked 0x0041 (.bytes []) = some (0x4152, .none) := by decide +kernel

/-- Section 5, S1: lane 0 read as little-endian bytes. -/
theorem test_spSqueeze :
    (answer (exec .spSqueeze { holding 0x0042 .none with state := 0x3C23F7860146D2C5 })).map
      (fun a => (a.1, a.2)) =
      some (0x4200, .bytes ([0xC5, 0xD2, 0x46, 0x01, 0x86, 0xF7, 0x23, 0x3C] ++ List.replicate 24 0)) := by
  decide +kernel

/-- In FAULT with ERR = 1 it is answered 0x4213. -/
theorem test_spSqueeze_faulted :
    answer (exec .spSqueeze (faultedWith 0x0042 .none)) = some (0x4213, .none) := by decide +kernel

/-- Section 1, V1, and section 5, S2. -/
theorem test_spHash :
    asked 0x0043 (.bytes []) = some (0x4300,
      .bytes (bytesOf 32 0xc5d2460186f7233c927e7db2dcc703c0e500b653ca82273b7bfad8045d85a470)) ∧
    asked 0x0043 (.bytes [0x61, 0x62, 0x63]) = some (0x4300,
      .bytes (bytesOf 32 0x4e03657aea45a94fc7d47ba826c8d667c0d1e6e33a64a036ec44f58fa12d6c45)) := by decide +kernel

/-- Section 5, S3, L = 136: two blocks, and not the digest of the first block alone. -/
theorem test_spHash_two_blocks :
    asked 0x0043 (.bytes ((List.range 136).map (BitVec.ofNat 8))) = some (0x4300,
      .bytes (bytesOf 32 0x7ce759f1ab7f9ce437719970c26b0a66ff11fe3e38e17df89cf5d29c7d7f807e)) := by decide +kernel

theorem test_illegal_words :
    asked 0x0003 .none = some (0x0332, .none) ∧ asked 0x8040 .none = some (0x4032, .none) ∧
    asked 0x0141 (.bits zeroBlock) = some (0x4132, .none) ∧ leaves 0x0003 .none = some (.fault, .illegalOpcode) := by
  decide +kernel

/-! ### The step mappings, the ROMs, padding: sections 3 and 4 -/

theorem test_theta :
    laneList (theta (ofLaneList [0, 0, 0, 0, 0, 0, 0, 0, 0, 0, 0, 0, 0, 0, 0, 0, 0, 0x8000000000000000])) =
      [0, 1, 0, 0x8000000000000000, 0, 0, 1, 0, 0x8000000000000000, 0, 0, 1, 0, 0x8000000000000000, 0,
       0, 1, 0x8000000000000000, 0x8000000000000000, 0, 0, 1, 0, 0x8000000000000000, 0] := by decide +kernel

theorem test_rho :
    laneList (rho (ofLaneList (List.replicate 25 0x8000000000000000))) = [
      0x8000000000000000, 0x0000000000000001, 0x2000000000000000, 0x0000000008000000, 0x0000000004000000,
      0x0000000800000000, 0x0000080000000000, 0x0000000000000020, 0x0040000000000000, 0x0000000000080000,
      0x0000000000000004, 0x0000000000000200, 0x0000040000000000, 0x0000000001000000, 0x0000004000000000,
      0x0000010000000000, 0x0000100000000000, 0x0000000000004000, 0x0000000000100000, 0x0000000000000080,
      0x0000000000020000, 0x0000000000000002, 0x1000000000000000, 0x0080000000000000, 0x0000000000002000] := by
  decide +kernel

theorem test_pi :
    laneList (pi (ofLaneList ((List.range 25).map (BitVec.ofNat 64)))) =
      [0, 6, 12, 18, 24, 3, 9, 10, 16, 22, 1, 7, 13, 19, 20, 4, 5, 11, 17, 23, 2, 8, 14, 15, 21] := by decide +kernel

theorem test_chi :
    (laneList (chi (ofLaneList
      [0x0123456789ABCDEF, 0xFEDCBA9876543210, 0x0F0F0F0F0F0F0F0F, 0x3333333333333333, 0x5555555555555555]))).take 5 =
      [0x0020406080A0C0E0, 0xCEEC8AA846640220, 0x4B4B4B4B4B4B4B4B, 0x33113311BB99BB99, 0xAB89EFCD23016745] := by
  decide +kernel

theorem test_iota : laneList (iota 0 23) = 0x8000000080008008 :: List.replicate 24 0 := by decide +kernel

/-- L = 135: one block, last byte 0x81; L = 134: `01`, then `80`. -/
theorem test_pad_edges :
    (bitsToBytes (pad (bytesToBits (List.replicate 135 0x00)))).drop 135 = [0x81] ∧
    (bitsToBytes (pad (bytesToBits (List.replicate 134 0x00)))).drop 134 = [0x01, 0x80] := by decide +kernel

/-! ### A placed word, the assembler, a micro-step, the pseudo-instructions -/

/-- The step after placing a word runs it: `SP.ABSORB` of a zero block, and SYS.STATUS of an engine in FAULT. -/
theorem test_withFetchWord :
    answer (step (State.reset.withFetchWord 16 0x0041)) = some (0x4100, .none) ∧
    answer (step ((faultedWith 0 .none).withFetchWord 16 0x0002)) = some (0x0200, .word 0x0017) ∧
    answer (step (inXor.withFetchWord 16 0x0012)) = some (0x1200, .bits (List.replicate 64 false)) := by
  decide +kernel

/-- The lines of 40_conversion.md and 95_test_vectors.md. -/
theorem test_assembler :
    assemblerLineWithResult .cvB2bits (.bytes [0x01, 0x80]) (.bits (bitsOf [1, 0, 0, 0, 0, 0, 0, 0, 0, 0, 0, 0, 0, 0, 0, 1])) =
      "CV.B2BITS bytes\"0180\" -> bits\"1000000000000001\"".toList ∧
    assemblerLine .cvLane2bits (.lane 0x8082) = "CV.LANE2BITS lane 0x0000000000008082".toList ∧
    (assemblerLine (.kfRound 3) (.state 0)).take 32 = "KF.ROUND 3 state[0x0000000000000".toList := by decide +kernel

/-- R125, the first PERM micro-step after XOR: round 0 done, RND = 1. -/
theorem test_microStep :
    (nextState (microStep (inPerm 0 1 false))).map (fun t => (t.fsm, t.rnd, lane t.state 0 0)) =
      some (.perm, 1, 1) := by decide +kernel

theorem test_expandKfRounds :
    (expandKfRounds 3 5 0).map (·.word) = [0x0320, 0x0420, 0x0520] ∧
    (expandKeccak256 []).map (·.word) = [0x0010, 0x0030, 0x0040, 0x0041, 0x0042] := by decide +kernel

/-! ### Witnesses: states and operands that meet the hypotheses of each statement, clause by clause -/

/-- What the host does to an engine in state `s`. -/
def withMoves (s : State) (moves : List HostMove) : State := { s with inbox := moves }

/-- A command as a move of the host. -/
def move (w : Word16) (d : Data) : HostMove := .command { word := w, din := d }

/-- An engine in FAULT, ERR = BLOCK_LENGTH. -/
def faulted : State := faultedWith 0 .none

theorem witness_ResetSetsEveryRegister :
    (withMoves (inPerm 23 1 true) [.powerOnReset]).inbox = .powerOnReset :: [] ∧
    (holding 1 .none).fsm = .idle ∧ faulted.fsm = .fault := by decide +kernel

theorem witness_DecodeOfEncode : (Instr.kfRound 31).wf = true ∧ Instr.spHash.wf = true := by decide

theorem witness_EncodeOfDecode : decode 0x1F20 = .ok (.kfRound 31) ∧ decode 0x0043 = .ok .spHash := by decide

theorem witness_IllegalWordsAreThoseOfR54 :
    (holding 0x00FF .none).fsm = .idle ∧ decode (holding 0x00FF .none).cmd = .error .unassignedOpcode ∧
    (holding 0x1820 .none).cmd = 0x1820 ∧ opcField 0x1820 = 0x20 ∧ rsvField 0x1820 = 0 ∧
    24 ≤ (irField 0x1820).toNat ∧
    opcField 0x1F20 = 0x20 ∧ rsvField 0x1F20 = 0 ∧ 24 ≤ (irField 0x1F20).toNat := by decide

theorem witness_StepRunsTheDecodedCommand :
    (withMoves State.reset [move 0x1F20 (.state 0)]).fsm = .idle ∧
    (withMoves State.reset [move 0x1F20 (.state 0)]).inbox = .command { word := 0x1F20, din := .state 0 } :: [] ∧
    decode 0x1F20 = .ok (.kfRound 31) ∧
    (withMoves faulted [move 0x0001 .none]).fsm = .fault ∧ decode 0x0001 = .ok .sysReset := by decide +kernel

theorem witness_StepOnIllegalWord :
    (withMoves State.reset [move 0x0003 .none]).inbox = .command { word := 0x0003, din := .none } :: [] ∧
    decode 0x0003 = .error .unassignedOpcode ∧ (withMoves State.reset [move 0x0003 .none]).fsm = .idle ∧
    (withMoves faulted [move 0x0003 .none]).fsm = .fault := by decide

theorem witness_PowerOnResetAbandonsTheCommand :
    (withMoves (inPerm 5 1 true) [.powerOnReset]).inbox = .powerOnReset :: [] ∧
    (withMoves inXor [move 0x0001 .none]).inbox = .command { word := 0x0001, din := .none } :: [] ∧
    (withMoves inXor [move 0x0001 .none]).fsm.busy = true ∧
    (nextState (step (withMoves inXor [move 0x0001 .none]))).isSome = true := by decide +kernel

theorem witness_EngineHoldsItsStateBetweenCommands :
    State.reset.fsm = .idle ∧ State.reset.inbox = [] ∧ faulted.fsm = .fault ∧ faulted.inbox = [] := by decide

theorem witness_ExecRefusesWhileASequenceRuns :
    inPad.fsm.busy = true ∧ inXor.fsm.busy = true ∧ (inPerm 0 1 true).fsm.busy = true ∧
    inSqueeze.fsm.busy = true := by decide

theorem witness_SysNopDoesNothing :
    (holding 0x0000 .none).fsm = .idle ∧ (holding 0x0000 .none).din = .none ∧
    (holding 0x0000 (.bits [])).fsm = .idle ∧ (holding 0x0000 (.bits [])).din.kind ≠ .none ∧
    faulted.fsm = .fault ∧ (holding 0x0000 .none).cmd = 0x0000 := by decide

theorem witness_SysStatusReadsFsmAndErr :
    (holding 0x0002 .none).fsm = .idle ∧ (holding 0x0002 .none).din = .none ∧
    (faultedWith 0x0002 (.lane 0)).fsm = .fault ∧
    (holding 0x0002 (.word 0)).fsm = .idle ∧ (holding 0x0002 (.word 0)).din.kind ≠ .none ∧
    (holding 0x0002 .none).err = .none ∧ (faultedWith 0x0002 (.lane 0)).err ≠ .none := by decide

theorem witness_SysResetResetsWithAnyOperand :
    (holding 0x0001 (.bits [true])).fsm = .idle ∧ faulted.fsm = .fault ∧
    ∃ t, exec .sysReset faulted = .next t ∧ t.fsm ≠ .fault := ⟨rfl, rfl, _, rfl, by decide⟩

theorem witness_CvB2bitsExpandsBytes :
    (holding 0x0010 (.bytes [0x80])).fsm = .idle ∧ (holding 0x0010 (.bytes [0x80])).din = .bytes [0x80] ∧
    (0 < [(0x80 : Byte)].length ∧ 7 < 8) ∧
    (holding 0x0010 (.bytes [])).din = .bytes [] ∧
    (holding 0x0010 (.bits [])).fsm = .idle ∧ (holding 0x0010 (.bits [])).din.kind ≠ .bytes := by decide

theorem witness_CvBits2bPacksBits :
    (holding 0x0011 (.bits [])).fsm = .idle ∧ (holding 0x0011 (.bits [])).din = .bits [] ∧
    ([] : Bits).length % 8 = 0 ∧ (List.replicate 8 true).length % 8 = 0 ∧
    (holding 0x0011 (.bits (List.replicate 7 true))).din = .bits (List.replicate 7 true) ∧
    (List.replicate 7 true).length % 8 ≠ 0 ∧ (List.replicate 9 true).length % 8 ≠ 0 ∧
    (holding 0x0011 (.bytes [])).fsm = .idle ∧ (holding 0x0011 (.bytes [])).din.kind ≠ .bits := by decide

theorem witness_CvLane2bitsListsTheBits :
    (holding 0x0012 (.lane 0x8000000000000000)).fsm = .idle ∧
    (holding 0x0012 (.lane 0x8000000000000000)).din = .lane 0x8000000000000000 ∧ 63 < 64 ∧
    (holding 0x0012 (.state 0)).fsm = .idle ∧ (holding 0x0012 (.state 0)).din.kind ≠ .lane := by decide

theorem witness_CvBits2laneMakesALane :
    (holding 0x0013 (.bits (List.replicate 64 true))).fsm = .idle ∧
    (holding 0x0013 (.bits (List.replicate 64 true))).din = .bits (List.replicate 64 true) ∧
    (List.replicate 64 true).length = 64 ∧
    (List.replicate 63 true).length ≠ 64 ∧ (List.replicate 65 true).length ≠ 64 ∧ ([] : Bits).length ≠ 64 ∧
    (holding 0x0013 (.lane 0)).fsm = .idle ∧ (holding 0x0013 (.lane 0)).din.kind ≠ .bits := by decide +kernel

theorem witness_ConverterInverseLaws :
    ([] : Bits).length % 8 = 0 ∧ (List.replicate 16 true).length % 8 = 0 ∧ (List.replicate 64 true).length = 64 ∧
    8 ≤ ([1, 2, 3, 4, 5, 6, 7, 8] : List Byte).length := by decide +kernel

theorem witness_LanesAreLittleEndianBytes : (List.replicate 200 (1 : Byte)).length = 200 := List.length_replicate

theorem witness_RotationOffsetsFollowTheWalk :
    ((1, 0) : Fin 5 × Fin 5) ≠ (0, 0) ∧ rotOffset 3 2 = rotOffset 3 2 := by decide

theorem witness_RoundConstantsFollowTheShiftRegister :
    (62 : Fin 64).val ∉ [0, 1, 3, 7, 15, 31, 63] ∧ (2 : Fin 64).val ∉ [0, 1, 3, 7, 15, 31, 63] := by decide

theorem witness_ThetaAddsTwoColumnParities : (0 : Nat) < 64 ∧ 63 < 64 := by decide

theorem witness_RhoRotatesEachLane : (0 : Nat) < 64 ∧ 63 < 64 := by decide

theorem witness_ChiIsTheNonlinearStep : (0 : Nat) < 64 ∧ 63 < 64 := by decide

theorem witness_IotaChangesLaneZeroAlone : ((4, 4) : Fin 5 × Fin 5) ≠ (0, 0) := by decide

theorem witness_KfRoundAppliesOneRound :
    23 < 24 ∧ (holding 0x1720 (.state 0)).fsm = .idle ∧ (holding 0x1720 (.state 0)).din = .state 0 ∧
    24 ≤ 24 ∧ 24 ≤ 31 ∧
    (holding 0x1720 (.bits [])).fsm = .idle ∧ (holding 0x1720 (.bits [])).din.kind ≠ .state := by decide +kernel

theorem witness_KfPermuteAppliesTwentyFourRounds :
    (holding 0x0021 (.state 0)).fsm = .idle ∧ (holding 0x0021 (.state 0)).din = .state 0 ∧
    (holding 0x0021 (.bits [])).fsm = .idle ∧ (holding 0x0021 (.bits [])).din.kind ≠ .state := by decide +kernel

theorem witness_PseudoInstructionsDoWhatR57Says :
    (withMoves State.reset (asMoves (expandKfRounds 0 23 0))).fsm = .idle ∧
    (withMoves State.reset (asMoves (expandKfRounds 0 23 0))).inbox = asMoves (expandKfRounds 0 23 0) ++ [] ∧
    (withMoves State.reset (asMoves (expandKeccak256 []))).fsm = .idle ∧
    (withMoves State.reset (asMoves (expandKeccak256 []))).inbox = asMoves (expandKeccak256 []) ++ [] :=
  ⟨rfl, (List.append_nil _).symm, rfl, (List.append_nil _).symm⟩

theorem witness_PaddedLengthIsTheLeast :
    ([] : Bits).length % 8 = 0 ∧ (List.replicate 1080 true).length % 8 = 0 ∧ zeroBlock.length % 8 = 0 ∧
    1088 ∣ 2176 ∧ zeroBlock.length + 8 ≤ 2176 := by decide +kernel

theorem witness_PadPlacesTwoOneBits :
    ([] : Bits).length % 8 = 0 ∧ ([] : Bits).length < 1 ∧ 1086 < (pad []).length - 1 ∧
    zeroBlock.length = 1088 * 1 := by decide +kernel

theorem witness_PaddedMessageAsBytes :
    (List.replicate 134 (0 : Byte)).length % 136 ≤ 134 ∧ (List.replicate 136 (0 : Byte)).length % 136 ≤ 134 ∧
    (List.replicate 135 (0 : Byte)).length % 136 = 135 ∧ (List.replicate 271 (0 : Byte)).length % 136 = 135 := by
  decide +kernel

theorem witness_PdPadPadsABitSequence :
    (holding 0x0030 (.bits [])).fsm = .idle ∧ (holding 0x0030 (.bits [])).din = .bits [] ∧
    ([] : Bits).length % 8 = 0 ∧ (List.replicate 1084 true).length % 8 ≠ 0 ∧
    (holding 0x0030 (.bits (List.replicate 1084 true))).din = .bits (List.replicate 1084 true) ∧
    (holding 0x0030 (.bytes [])).fsm = .idle ∧ (holding 0x0030 (.bytes [])).din.kind ≠ .bits := by decide +kernel

theorem witness_SpInitZeroesState :
    (holding 0x0040 .none).fsm = .idle ∧ (holding 0x0040 .none).din = .none ∧
    (holding 0x0040 (.state 0)).fsm = .idle ∧ (holding 0x0040 (.state 0)).din.kind ≠ .none := by decide

theorem witness_SpAbsorbXorsTheRateThenPermutes :
    (holding 0x0041 (.bits zeroBlock)).fsm = .idle ∧ (holding 0x0041 (.bits zeroBlock)).din = .bits zeroBlock ∧
    zeroBlock.length = 1088 ∧ 1087 < 1088 ∧
    (List.replicate 1087 true).length ≠ 1088 ∧ (List.replicate 1089 true).length ≠ 1088 ∧
    ([] : Bits).length ≠ 1088 ∧
    (holding 0x0041 (.bytes [])).fsm = .idle ∧ (holding 0x0041 (.bytes [])).din.kind ≠ .bits := by decide +kernel

theorem witness_SpSqueezeReadsTheDigest :
    (holding 0x0042 .none).fsm = .idle ∧ (holding 0x0042 .none).din = .none ∧ 7 < 8 ∧
    (holding 0x0042 .none).state = 0 ∧
    (holding 0x0042 (.bytes [])).fsm = .idle ∧ (holding 0x0042 (.bytes [])).din.kind ≠ .none := by decide +kernel

/-- A full message of a bounded build, and one byte more. -/
theorem witness_SpHashAbsorbsEveryBlock :
    (holding 0x0043 (.bytes [])).fsm = .idle ∧ (holding 0x0043 (.bytes [])).din = .bytes [] ∧
    (holding 0x0043 (.bytes [])).cfg.maxMsgBytes = none ∧
    ({ holding 0x0043 (.bytes (List.replicate 135 0)) with cfg := oneBlockBuild } : State).cfg.maxMsgBytes = some 135 ∧
    (List.replicate 135 (0 : Byte)).length ≤ 135 ∧ 135 < (List.replicate 136 (0 : Byte)).length ∧
    0 < (List.replicate 135 (0 : Byte)).length / 136 + 1 ∧
    (holding 0x0043 (.bits [])).fsm = .idle ∧ (holding 0x0043 (.bits [])).din.kind ≠ .bytes := by decide +kernel

theorem witness_SpongeSequenceEqualsHash :
    (withMoves State.reset (asMoves (spongeSequence [0x61]))).fsm = .idle ∧
    (withMoves State.reset (asMoves (spongeSequence [0x61]))).inbox = asMoves (spongeSequence [0x61]) ++ [] ∧
    (holding 0x0043 (.bytes [0x61])).fsm = .idle ∧ (holding 0x0043 (.bytes [0x61])).din = .bytes [0x61] ∧
    (holding 0x0043 (.bytes [0x61])).cfg.exceeds 1 = false ∧ oneBlockBuild.exceeds 135 = false :=
  ⟨rfl, (List.append_nil _).symm, rfl, rfl, rfl, by decide⟩

/-- One line for each row of R125. -/
theorem witness_SpongeStateMachineTable :
    ((holding 0x0043 (.bytes [])).fsm = .idle ∧ decode (holding 0x0043 (.bytes [])).cmd = .ok .spHash ∧
      (holding 0x0043 (.bytes [])).cfg.exceeds 0 = false) ∧
    ((holding 0x0041 (.bits zeroBlock)).fsm = .idle ∧ decode (holding 0x0041 (.bits zeroBlock)).cmd = .ok .spAbsorb ∧
      zeroBlock.length = 1088) ∧
    (inPad.fsm = .pad ∧ inPad.din = .bytes []) ∧
    (inXor.fsm = .xor ∧ 1088 * inXor.blk + 1088 ≤ inXor.pbuf.length) ∧
    ((inPerm 22 1 true).rnd.toNat < 24 ∧ (inPerm 22 1 true).fsm = .perm ∧ (inPerm 22 1 true).rnd.toNat < 23) ∧
    ((inPerm 23 2 true).rnd = 23 ∧ (inPerm 23 2 true).blk + 1 < (inPerm 23 2 true).nblk) ∧
    ((inPerm 23 1 true).blk + 1 = (inPerm 23 1 true).nblk ∧ (inPerm 23 1 true).sqz = true) ∧
    ((inPerm 23 1 false).blk + 1 = (inPerm 23 1 false).nblk ∧ (inPerm 23 1 false).sqz = false) ∧
    inSqueeze.fsm = .squeeze ∧
    ((nextState (beginCommand (holding 0x0041 (.bits [])))).map (·.fsm) = some .fault) ∧
    (inSqueeze.fsm.busy = true ∧ (nextState (microStep inSqueeze)).isSome = true) ∧
    (decode (holding 0x0012 (.lane 0)).cmd = .ok .cvLane2bits ∧
      (nextState (beginCommand (holding 0x0012 (.lane 0)))).isSome = true) ∧
    ((faultedWith 0x0001 .none).fsm = .fault ∧ decode (faultedWith 0x0001 .none).cmd = .ok .sysReset) ∧
    (withMoves inXor [.powerOnReset]).inbox = .powerOnReset :: [] := by decide +kernel

theorem witness_AbsorbMicroStepsEqualTheAtomicStep :
    (present 0x0041 (.bits zeroBlock)).fsm = .idle ∧ SequencerQuiet (present 0x0041 (.bits zeroBlock)) ∧
    (present 0x0041 (.bits zeroBlock)).inbox = .command { word := 0x0041, din := .bits zeroBlock } :: [] ∧
    zeroBlock.length = 1088 ∧ NoResetNext [] ∧ (0 < 25 ∧ 25 < 26) :=
  ⟨rfl, by decide, rfl, List.length_replicate, by simp [NoResetNext], by decide⟩

theorem witness_HashMicroStepsEqualTheAtomicStep :
    (present 0x0043 (.bytes [])).fsm = .idle ∧ SequencerQuiet (present 0x0043 (.bytes [])) ∧
    (present 0x0043 (.bytes [])).inbox = .command { word := 0x0043, din := .bytes [] } :: [] ∧
    (present 0x0043 (.bytes [])).cfg.exceeds 0 = false ∧ oneBlockBuild.exceeds 135 = false ∧ NoResetNext [] ∧
    27 < 3 + 25 * (([] : List Byte).length / 136 + 1) :=
  ⟨rfl, by decide, rfl, rfl, by decide, by simp [NoResetNext], by decide⟩

/-- Two engines with other STATE and other blocks. -/
theorem witness_ControlIsIndependentOfData :
    (present 0x0041 (.bits zeroBlock)).fsm = .idle ∧ SequencerQuiet (present 0x0041 (.bits zeroBlock)) ∧
    (present 0x0041 (.bits zeroBlock)).inbox = [.command { word := 0x0041, din := .bits zeroBlock }] ∧
    ({ present 0x0041 (.bits (List.replicate 1088 true)) with state := 7 } : State) =
      { present 0x0041 (.bits zeroBlock) with
        state := 7, inbox := [.command { word := 0x0041, din := .bits (List.replicate 1088 true) }] } ∧
    (Data.bits zeroBlock).kind = (Data.bits (List.replicate 1088 true)).kind ∧
    zeroBlock.length = (List.replicate 1088 true).length :=
  ⟨rfl, by decide, rfl, rfl, rfl, by rw [zeroBlock, List.length_replicate, List.length_replicate]⟩

theorem witness_RaisingAnErrorIsPrecise :
    (present 0x0003 .none).fsm = .idle ∧
    (present 0x0003 .none).inbox = .command { word := 0x0003, din := .none } :: [] ∧
    ∃ t, step (present 0x0003 .none) = .next t ∧ t.fsm = .fault :=
  ⟨rfl, rfl, _, rfl, rfl⟩

theorem witness_FaultIsSticky :
    (withMoves faulted [move 0x0001 .none]).fsm = .fault ∧
    (withMoves faulted [move 0x0001 .none]).inbox = .command { word := 0x0001, din := .none } :: [] ∧
    decode 0x0001 = .ok .sysReset ∧ decode 0x0002 = .ok .sysStatus ∧
    decode 0x0003 ≠ .ok .sysReset ∧ decode 0x0003 ≠ .ok .sysStatus ∧
    decode 0x0043 ≠ .ok .sysReset ∧ decode 0x0043 ≠ .ok .sysStatus := by decide

theorem witness_FirstFailingCheckDecides :
    ((faultedWith 0x0003 .none).fsm = .fault ∧ decode (faultedWith 0x0003 .none).cmd ≠ .ok .sysStatus ∧
      decode (faultedWith 0x0003 .none).cmd ≠ .ok .sysReset) ∧
    decode (faultedWith 0x0002 .none).cmd = .ok .sysStatus ∧ decode (faultedWith 0x0001 .none).cmd = .ok .sysReset ∧
    (holding 0x2020 .none).fsm = .idle ∧ decode (holding 0x2020 .none).cmd = .error .reservedBits ∧
    (decode (holding 0x1E20 (.bits [])).cmd = .ok (.kfRound 30) ∧ 24 ≤ 30) ∧
    (decode (holding 0x1720 (.bits [])).cmd = .ok (.kfRound 23) ∧ 23 < 24 ∧
      (holding 0x1720 (.bits [])).din.kind ≠ (Instr.kfRound 23).operandKind) ∧
    (decode (holding 0x0041 (.bits [])).cmd = .ok .spAbsorb ∧ ([] : Bits).length ≠ 1088) ∧
    (decode (holding 0x0011 (.bits [true])).cmd = .ok .cvBits2b ∧ [true].length % 8 ≠ 0) ∧
    (decode (holding 0x0013 (.bits [])).cmd = .ok .cvBits2lane ∧ ([] : Bits).length ≠ 64) ∧
    (decode (holding 0x0043 (.bytes [])).cmd = .ok .spHash ∧ oneBlockBuild.exceeds 136 = true) ∧
    (decode (holding 0x0041 (.bits zeroBlock)).cmd = .ok .spAbsorb ∧
      (holding 0x0041 (.bits zeroBlock)).din.kind = Instr.spAbsorb.operandKind ∧ zeroBlock.length = 1088) := by
  decide +kernel

theorem witness_OnlyResetLeavesFault :
    (withMoves faulted [move 0x0001 .none]).fsm = .fault ∧
    (∃ t, step (withMoves faulted [move 0x0001 .none]) = .next t ∧ t.fsm ≠ .fault) ∧
    (∃ t, step (withMoves faulted [.powerOnReset]) = .next t ∧ t.fsm ≠ .fault) ∧
    ∃ t, step (withMoves faulted [move 0x0003 .none]) = .next t ∧ t.fsm = .fault :=
  ⟨rfl, ⟨_, rfl, by decide⟩, ⟨_, rfl, by decide⟩, ⟨_, rfl, rfl⟩⟩

theorem witness_ErrHoldsTheFirstError :
    (∃ t, step (present 0x0003 .none) = .next t ∧ t.err ≠ (present 0x0003 .none).err) ∧
    ∃ t, step (withMoves faulted [move 0x0001 .none]) = .next t ∧
      t.err ≠ (withMoves faulted [move 0x0001 .none]).err :=
  ⟨⟨_, rfl, by decide⟩, ⟨_, rfl, by decide⟩⟩

theorem witness_EveryCommandGetsOneResponse :
    (present 0x0003 .none).fsm = .idle ∧
    (present 0x0003 .none).inbox = .command { word := 0x0003, din := .none } :: [] ∧
    (withMoves faulted [move 0x0043 (.bytes [])]).fsm = .fault ∧
    (withMoves faulted [move 0x0043 (.bytes [])]).inbox = .command { word := 0x0043, din := .bytes [] } :: [] := by
  decide

theorem witness_inv_idle : EngineInv (present 0x0000 .none) := by show _ ∧ _ ∧ _; decide
theorem witness_inv_fault : EngineInv (withMoves faulted [move 0x0001 .none]) := by show _ ∧ _ ∧ _; decide
theorem witness_inv_pad : EngineInv inPad := by show _ ∧ _ ∧ _; decide
theorem witness_inv_xor : EngineInv inXor := by show AbsorbingBlocks _ ∧ _ ∧ _; decide +kernel
theorem witness_inv_perm : EngineInv (inPerm 23 1 true) := by show AbsorbingBlocks _ ∧ _ ∧ _; decide +kernel
theorem witness_inv_squeeze : EngineInv inSqueeze := by show NoAnswerYet _ ∧ _ ∧ _ ∧ _ ∧ _; decide +kernel

/-- A state that meets the invariant, with a next state, for every value of FSM. -/
theorem witness_EveryStepKeepsTheInvariant :
    (EngineInv (present 0x0000 .none) ∧ ∃ t, step (present 0x0000 .none) = .next t) ∧
    (EngineInv (withMoves faulted [move 0x0001 .none]) ∧
      ∃ t, step (withMoves faulted [move 0x0001 .none]) = .next t) ∧
    (EngineInv inPad ∧ (nextState (step inPad)).isSome = true) ∧
    (EngineInv inXor ∧ (nextState (step inXor)).isSome = true) ∧
    (EngineInv (inPerm 23 1 true) ∧ (nextState (step (inPerm 23 1 true))).isSome = true) ∧
    (EngineInv inSqueeze ∧ (nextState (step inSqueeze)).isSome = true) :=
  ⟨⟨witness_inv_idle, _, rfl⟩, ⟨witness_inv_fault, _, rfl⟩, ⟨witness_inv_pad, by decide +kernel⟩,
    ⟨witness_inv_xor, by decide +kernel⟩, ⟨witness_inv_perm, by decide +kernel⟩, ⟨witness_inv_squeeze, by decide +kernel⟩⟩

theorem witness_MicroViewKeepsTheInvariant :
    EngineInv (present 0x0043 (.bytes [])) ∧ ∃ t, microViewStep (present 0x0043 (.bytes [])) = .next t ∧ t.fsm = .pad :=
  ⟨by show _ ∧ _ ∧ _; decide, _, rfl, rfl⟩

theorem witness_NoStepStopsTheEngine : EngineInv (inPerm 23 1 true) ∧ EngineInv inXor ∧ EngineInv inPad :=
  ⟨witness_inv_perm, witness_inv_xor, witness_inv_pad⟩

/-- At the bound: 1-bit counters, one block, the message of 135 bytes that fills it. -/
theorem witness_BlockCountersFitTheirWidth :
    oneBlockBuild.wf = true ∧
    CountersFit { present 0x0043 (.bytes (List.replicate 135 0)) with cfg := oneBlockBuild } ∧
    (nextState (microViewStep { present 0x0043 (.bytes (List.replicate 135 0)) with cfg := oneBlockBuild })).map
      (·.fsm) = some .pad := by
  refine ⟨by decide, ⟨by decide, ?_, by intro h; cases h⟩, by decide +kernel⟩
  intro w hw
  exact ⟨Nat.two_pow_pos w, Nat.two_pow_pos w⟩

theorem witness_CommandEndsAtABoundary :
    AtCommandBoundary (present 0x0003 .none) ∧
    (present 0x0003 .none).inbox = .command { word := 0x0003, din := .none } :: [] ∧
    (∃ t, step (present 0x0003 .none) = .next t) ∧
    (withMoves inXor [.powerOnReset]).inbox = .powerOnReset :: [] := ⟨by decide, rfl, ⟨_, rfl⟩, rfl⟩

theorem witness_OnlyTheNamedCommandsWriteState :
    ({ present 0x0040 .none with state := 1 } : State).fsm = .idle ∧
    ∃ t, step { present 0x0040 .none with state := 1 } = .next t ∧
      t.state ≠ ({ present 0x0040 .none with state := 1 } : State).state :=
  ⟨rfl, _, rfl, by decide +kernel⟩

theorem witness_PureUnitsHoldNoState :
    IsPureUnit .cvLane2bits ∧ (holding 0x0012 (.lane 1)).fsm = .idle ∧
    (∃ t, exec .cvLane2bits (holding 0x0012 (.lane 1)) = .next t ∧ t.fsm = .idle) ∧
    ({ holding 0x0012 (.lane 1) with state := 9 } : State).cmd = (holding 0x0012 (.lane 1)).cmd ∧
    ({ holding 0x0012 (.lane 1) with state := 9 } : State).din = (holding 0x0012 (.lane 1)).din ∧
    ∃ t, exec .cvLane2bits { holding 0x0012 (.lane 1) with state := 9 } = .next t :=
  ⟨trivial, rfl, ⟨_, rfl, rfl⟩, rfl, rfl, _, rfl⟩

theorem witness_RepeatingACommandChangesNothing :
    (IsPureUnit .cvLane2bits ∧ ∃ t, exec .cvLane2bits (holding 0x0012 (.lane 1)) = .next t ∧ t.fsm = .idle) ∧
    (Instr.spInit ∈ [Instr.sysNop, .sysStatus, .spSqueeze, .spInit, .spHash] ∧
      ∃ t, exec .spInit (holding 0x0040 .none) = .next t ∧ t.fsm = .idle) :=
  ⟨⟨trivial, _, rfl, rfl⟩, by decide, _, rfl, rfl⟩

/-- Two states that differ in the capacity alone: bit 1088, its first. -/
theorem witness_CapacityBitsAreNeverExposed :
    (holding 0x0042 .none).fsm = .idle ∧
    SameButCapacity (holding 0x0042 .none) { holding 0x0042 .none with state := 1#1600 <<< 1088 } ∧
    (holding 0x0042 .none).state ≠ 1#1600 <<< 1088 ∧ Instr.spSqueeze ≠ .spAbsorb :=
  ⟨rfl, ⟨by decide +kernel, rfl⟩, by decide +kernel, by decide⟩

theorem witness_EnginesShareNoState :
    (∃ q, Platform.run { engines := [present 0x0000 .none, faulted], engineBase := none } [0, 1, 0] = .next q) ∧
    (⟨[present 0x0000 .none, faulted], none⟩ : Platform).engines[1]? = some faulted := ⟨⟨_, rfl⟩, rfl⟩

end Sys2Proof.Tests
end

section
/-! What one command can do at a command boundary (rules R152, R153, R27, R14), said once for every command. Two IDLE states
that hold the same operand and agree on what the command reads take the same branch of R153; a state compared with itself gives
the frame of the command. -/

namespace Sys2Proof.Machine

/-- The registers and parameters a command reads besides its operand agree in `s` and `t`. -/
def SameReads (s t : State) : Instr → Prop
  | .sysStatus => t.err = s.err
  | .spSqueeze => squeezeDigest t.state = squeezeDigest s.state
  | .spHash => t.cfg = s.cfg
  | .sysNop | .sysReset | .cvB2bits | .cvBits2b | .cvLane2bits | .cvBits2lane | .kfRound _ | .kfPermute | .pdPad
  | .spInit | .spAbsorb => True

/-- How the values `S` and `T` that a command, executed in `s` and in `t`, leaves in STATE follow from the values before: the
same in both, one block absorbed in both, or the values before (R14, R121 to R124). -/
def StatesAfter (s t : State) : Instr → KState → KState → Prop
  | .spInit, S, T | .spHash, S, T => S = T
  | .spAbsorb, S, T => ∃ blk, S = absorbBlock s.state blk ∧ T = absorbBlock t.state blk
  | .sysNop, S, T | .sysReset, S, T | .sysStatus, S, T | .cvB2bits, S, T | .cvBits2b, S, T | .cvLane2bits, S, T
  | .cvBits2lane, S, T | .kfRound _, S, T | .kfPermute, S, T | .pdPad, S, T | .spSqueeze, S, T =>
    S = s.state ∧ T = t.state

/-- The outcomes `x` in `s` and `y` in `t` are of one branch of R153: both raise the same error, or both execute with the same
result and leave values in STATE that `Q` relates. -/
def SameBranch (Q : KState → KState → Prop) (s t : State) (x y : Result) : Prop :=
  (∃ code, code ≠ .none ∧ x = .next (s.raise code) ∧ y = .next (t.raise code)) ∨
  (∃ S T d, Q S T ∧ x = .next ((s.setState S).ok d) ∧ y = .next ((t.setState T).ok d))

section
variable {Q : KState → KState → Prop} {s t : State}

theorem SameBranch.raise {code : ErrCode} (h : code ≠ .none) : SameBranch Q s t (.next (s.raise code)) (.next (t.raise code)) :=
  .inl ⟨code, h, rfl, rfl⟩

theorem SameBranch.write {S T : KState} (h : Q S T) (d : Data) :
    SameBranch Q s t (.next ((s.setState S).ok d)) (.next ((t.setState T).ok d)) := .inr ⟨S, T, d, h, rfl, rfl⟩

theorem SameBranch.ok (h : Q s.state t.state) (d : Data) : SameBranch Q s t (.next (s.ok d)) (.next (t.ok d)) := .write h d

theorem SameBranch.operandKind : SameBranch Q s t (.next (s.raise .operandKind)) (.next (t.raise .operandKind)) :=
  .raise (by decide)

theorem SameBranch.require {x y : Result} {code : ErrCode} (condition : Bool) (hcode : code ≠ .none) (h : SameBranch Q s t x y) :
    SameBranch Q s t (s.require condition code x) (t.require condition code y) := by
  cases condition with
  | true => exact h
  | false => exact .raise hcode

variable (hd : t.din = s.din)
include hd

theorem SameBranch.takeNone {x y : Result} (h : SameBranch Q s t x y) : SameBranch Q s t (s.takeNone x) (t.takeNone y) := by
  unfold State.takeNone
  rw [hd]
  cases s.din with
  | none => exact h
  | _ => exact .operandKind

theorem SameBranch.takeBytes {f g : List Byte → Result} (h : ∀ m, SameBranch Q s t (f m) (g m)) :
    SameBranch Q s t (s.takeBytes f) (t.takeBytes g) := by
  unfold State.takeBytes
  rw [hd]
  cases s.din with
  | bytes m => exact h m
  | _ => exact .operandKind

theorem SameBranch.takeBits {f g : Bits → Result} (h : ∀ b, SameBranch Q s t (f b) (g b)) :
    SameBranch Q s t (s.takeBits f) (t.takeBits g) := by
  unfold State.takeBits
  rw [hd]
  cases s.din with
  | bits b => exact h b
  | _ => exact .operandKind

theorem SameBranch.takeLane {f g : Lane → Result} (h : ∀ v, SameBranch Q s t (f v) (g v)) :
    SameBranch Q s t (s.takeLane f) (t.takeLane g) := by
  unfold State.takeLane
  rw [hd]
  cases s.din with
  | lane v => exact h v
  | _ => exact .operandKind

theorem SameBranch.takeState {f g : KState → Result} (h : ∀ S, SameBranch Q s t (f S) (g S)) :
    SameBranch Q s t (s.takeState f) (t.takeState g) := by
  unfold State.takeState
  rw [hd]
  cases s.din with
  | state S => exact h S
  | _ => exact .operandKind

end

/-- The branch a command takes in IDLE, and the result it answers, follow from its operand and what it reads. -/
theorem exec_idle_sameBranch {i : Instr} {s t : State} (hi : i ≠ .sysReset) (hs : s.fsm = .idle) (ht : t.fsm = .idle)
    (hd : t.din = s.din) (hr : SameReads s t i) : SameBranch (StatesAfter s t i) s t (exec i s) (exec i t) := by
  have inIdle {x y : Result} (h : SameBranch (StatesAfter s t i) s t x y) :
      SameBranch (StatesAfter s t i) s t (s.inIdle x) (t.inIdle y) := by
    rwa [State.inIdle_idle hs, State.inIdle_idle ht]
  cases i with
  | sysReset => exact absurd rfl hi
  | sysNop => exact inIdle (.takeNone hd (.ok ⟨rfl, rfl⟩ _))
  | sysStatus =>
    have herr : t.err = s.err := hr
    simp only [exec, execSysStatus, hs, ht, herr]
    exact .takeNone hd (.ok ⟨rfl, rfl⟩ _)
  | cvB2bits => exact inIdle (.takeBytes hd fun m => .ok ⟨rfl, rfl⟩ _)
  | cvBits2b => exact inIdle (.takeBits hd fun b => .require _ (by decide) (.ok ⟨rfl, rfl⟩ _))
  | cvLane2bits => exact inIdle (.takeLane hd fun v => .ok ⟨rfl, rfl⟩ _)
  | cvBits2lane => exact inIdle (.takeBits hd fun b => .require _ (by decide) (.ok ⟨rfl, rfl⟩ _))
  | kfRound ir =>
    apply inIdle
    by_cases h : ir < 24
    · simp only [dif_pos h]
      exact .takeState hd fun S => .ok ⟨rfl, rfl⟩ _
    · simp only [dif_neg h]
      exact .raise (by decide)
  | kfPermute => exact inIdle (.takeState hd fun S => .ok ⟨rfl, rfl⟩ _)
  | pdPad => exact inIdle (.takeBits hd fun b => .require _ (by decide) (.ok ⟨rfl, rfl⟩ _))
  | spInit => exact inIdle (.takeNone hd (.write rfl _))
  | spAbsorb => exact inIdle (.takeBits hd fun b => .require _ (by decide) (.write ⟨b, rfl, rfl⟩ _))
  | spSqueeze =>
    have hdigest : squeezeDigest t.state = squeezeDigest s.state := hr
    simp only [exec, execSpSqueeze, hdigest]
    exact inIdle (.takeNone hd (.ok ⟨rfl, rfl⟩ _))
  | spHash =>
    have hcfg : t.cfg = s.cfg := hr
    simp only [exec, execSpHash, hcfg]
    exact inIdle (.takeBytes hd fun m => .require _ (by decide) (.write rfl _))

theorem SameReads.refl (s : State) (i : Instr) : SameReads s s i := by cases i <;> trivial

/-- A command that R14 does not name leaves STATE as it was. -/
theorem StatesAfter.eq_of_not_writesState {i : Instr} {s t : State} {S T : KState} (h : StatesAfter s t i S T)
    (hi : ¬ WritesState i) : S = s.state ∧ T = t.state := by
  cases i with
  | spInit => exact absurd trivial hi
  | spAbsorb => exact absurd trivial hi
  | spHash => exact absurd trivial hi
  | _ => exact h

/-- SYS.RESET executes at every command boundary (R142). -/
theorem exec_sysReset {s : State} (h : s.fsm = .idle ∨ s.fsm = .fault) :
    exec .sysReset s = .next (s.resetRegs.ok .none) := by
  rcases h with h | h <;> simp only [exec, execSysReset, h]

/-- In FAULT SYS.STATUS executes whatever its operand (R141, R152). -/
theorem exec_sysStatus_fault {s : State} (h : s.fsm = .fault) :
    exec .sysStatus s = .next (s.ok (.word (statusWord s.err .fault))) := by
  simp only [exec, execSysStatus, h]

/-- In FAULT every other command is answered FAULTED (R152). -/
theorem exec_fault {i : Instr} {s : State} (h : s.fsm = .fault) (hreset : i ≠ .sysReset) (hstatus : i ≠ .sysStatus) :
    exec i s = .next s.answerFaulted := by
  cases i with
  | sysReset => exact absurd rfl hreset
  | sysStatus => exact absurd rfl hstatus
  | _ => exact State.inIdle_fault h _

theorem fsm_eq_of_not_busy {s : State} (hb : s.fsm.busy = false) : s.fsm = .idle ∨ s.fsm = .fault := by
  cases hf : s.fsm with
  | idle => exact .inl rfl
  | fault => exact .inr rfl
  | _ => simp [hf, Fsm.busy] at hb

theorem not_busy_of_boundary {s : State} (h : s.fsm = .idle ∨ s.fsm = .fault) : s.fsm.busy = false := by
  rcases h with h | h <;> rw [h] <;> rfl

/-- What a command does at a command boundary: SYS.RESET apart, it executes, and only the commands R14 names put a new value
in STATE; or it raises an error in IDLE; or it is answered FAULTED. -/
theorem exec_boundary_cases (i : Instr) {s : State} (hb : s.fsm.busy = false) :
    (s.fsm = .fault ∧ exec i s = .next s.answerFaulted) ∨
    (s.fsm = .idle ∧ ∃ code, code ≠ .none ∧ exec i s = .next (s.raise code)) ∨
    (i = .sysReset ∧ exec i s = .next (s.resetRegs.ok .none)) ∨
    (∃ S d, (S ≠ s.state → WritesState i) ∧ exec i s = .next ((s.setState S).ok d)) := by
  have hf := fsm_eq_of_not_busy hb
  by_cases hreset : i = .sysReset
  · subst hreset
    exact .inr (.inr (.inl ⟨rfl, exec_sysReset hf⟩))
  rcases hf with hidle | hfault
  · rcases exec_idle_sameBranch hreset hidle hidle rfl (.refl s i) with ⟨code, hcode, hx, -⟩ | ⟨S, T, d, hS, hx, -⟩
    · exact .inr (.inl ⟨hidle, code, hcode, hx⟩)
    · refine .inr (.inr (.inr ⟨S, d, fun hne => ?_, hx⟩))
      by_contra hw
      exact hne (hS.eq_of_not_writesState hw).1
  · by_cases hstatus : i = .sysStatus
    · subst hstatus
      exact .inr (.inr (.inr ⟨s.state, _, fun hne => absurd rfl hne, exec_sysStatus_fault hfault⟩))
    · exact .inl ⟨hfault, exec_fault hfault hreset hstatus⟩

/-- What becomes of an accepted command word, legal or not (R153, R54). -/
theorem runCommand_cases {s t : State} (hb : s.fsm.busy = false) (h : runCommand s = .next t) :
    (s.fsm = .fault ∧ t = s.answerFaulted) ∨
    (s.fsm = .idle ∧ ∃ code, code ≠ .none ∧ t = s.raise code) ∨
    (decode s.cmd = .ok .sysReset ∧ t = s.resetRegs.ok .none) ∨
    (∃ S d, (S ≠ s.state → ∃ i, decode s.cmd = .ok i ∧ WritesState i) ∧ t = (s.setState S).ok d) := by
  unfold runCommand at h
  cases hdec : decode s.cmd with
  | error e =>
    simp only [hdec] at h
    cases hf : s.fsm with
    | idle =>
      rw [State.illegalWord, State.inIdle_idle hf] at h
      exact .inr (.inl ⟨rfl, _, by decide, (Host.Outcome.next.inj h).symm⟩)
    | fault =>
      rw [State.illegalWord, State.inIdle_fault hf] at h
      exact .inl ⟨rfl, (Host.Outcome.next.inj h).symm⟩
    | _ => simp [hf, Fsm.busy] at hb
  | ok i =>
    simp only [hdec] at h
    rcases exec_boundary_cases i hb with ⟨hf, hx⟩ | ⟨hf, code, hcode, hx⟩ | ⟨rfl, hx⟩ | ⟨S, d, hS, hx⟩ <;>
      obtain rfl := Host.Outcome.next.inj (h.symm.trans hx)
    · exact .inl ⟨hf, rfl⟩
    · exact .inr (.inl ⟨hf, code, hcode, rfl⟩)
    · exact .inr (.inr (.inl ⟨rfl, rfl⟩))
    · exact .inr (.inr (.inr ⟨S, d, fun hne => ⟨i, rfl, hS hne⟩, rfl⟩))

/-- What becomes of an accepted command in the micro-step view: an acceptance row of R125, or the whole command. -/
theorem beginCommand_cases {s t : State} (h : beginCommand s = .next t) :
    runCommand s = .next t ∨
    (s.fsm = .idle ∧
      ((∃ blk, s.din = .bits blk ∧ blk.length = 1088 ∧ t = s.beginAbsorb blk) ∨
       (∃ m, s.din = .bytes m ∧ s.cfg.exceeds m.length = false ∧ t = s.beginHash))) := by
  unfold beginCommand at h
  split at h
  case h_1 blk hcmd hf hd =>
    by_cases hl : blk.length = 1088
    · rw [if_pos hl] at h
      exact .inr ⟨hf, .inl ⟨blk, hd, hl, (Host.Outcome.next.inj h).symm⟩⟩
    · rw [if_neg hl] at h
      exact .inl h
  case h_2 m hcmd hf hd =>
    by_cases hx : s.cfg.exceeds m.length = true
    · rw [if_pos hx] at h
      exact .inl h
    · rw [if_neg hx] at h
      exact .inr ⟨hf, .inr ⟨m, hd, Bool.eq_false_iff.mpr hx, (Host.Outcome.next.inj h).symm⟩⟩
  case h_3 => exact .inl h

/-- A step of the micro-step view is a step of the atomic view, or the acceptance row of SP.ABSORB or SP.HASH (R125, R128). -/
theorem microViewStep_cases {s t : State} (h : microViewStep s = .next t) :
    step s = .next t ∨
    ∃ c rest, s.inbox = .command c :: rest ∧ s.fsm = .idle ∧
      ((∃ blk, c.din = .bits blk ∧ blk.length = 1088 ∧ t = (s.accept c rest).beginAbsorb blk) ∨
       (∃ m, c.din = .bytes m ∧ s.cfg.exceeds m.length = false ∧ t = (s.accept c rest).beginHash)) := by
  unfold microViewStep at h
  unfold step
  cases hi : s.inbox with
  | nil => simp only [hi] at h; exact .inl h
  | cons move rest =>
    cases move with
    | powerOnReset => simp only [hi] at h; exact .inl h
    | command c =>
      cases hb : s.fsm.busy with
      | true =>
        rw [hi, hb] at h
        exact .inl h
      | false =>
        rw [hi, hb] at h
        rcases beginCommand_cases h with hrun | ⟨hf, hrow⟩
        · exact .inl hrun
        · exact .inr ⟨c, rest, rfl, hf, hrow⟩

end Sys2Proof.Machine
end

section
/-! The engine's invariant (rules R17 to R20, R28, R29, R151): it holds at reset, and every step of the atomic view and of the
micro-step view keeps it. -/

namespace Sys2Proof.Machine

theorem length_orBit (P : Bits) (i : Nat) (b : Bool) : (orBit P i b).length = P.length := by simp [orBit]

theorem length_foldl_orBit {α : Type} (js : List α) (pos : α → Nat) (bit : α → Bool) (P : Bits) :
    (js.foldl (fun P j => orBit P (pos j) (bit j)) P).length = P.length := by
  induction js generalizing P with
  | nil => rfl
  | cons j js ih => rw [List.foldl_cons, ih, length_orBit]

/-- A padded message is a whole number of blocks (R110). -/
theorem length_pad (s : Bits) : (pad s).length = 1088 * paddedBlocks s.length := by
  have hfits : s.length ≤ 1088 * paddedBlocks s.length := by
    unfold paddedBlocks
    omega
  simp only [pad, length_orBit, length_foldl_orBit, List.length_append, List.length_replicate]
  omega

/-- A message of `len` bytes is padded to `len div 136 + 1` blocks (R111). -/
theorem paddedBlocks_bytes (len : Nat) : paddedBlocks (8 * len) = len / 136 + 1 := by
  unfold paddedBlocks
  omega

/-- The blocks of the padded message that SP.HASH absorbs (R111, R125). -/
theorem length_pad_bytes (m : List Byte) : (pad (bytesToBits m)).length = 1088 * (m.length / 136 + 1) := by
  rw [length_pad, length_bytesToBits, paddedBlocks_bytes]

/-- A command accepted at a command boundary ends at one and leaves no command behind (R28). -/
theorem runCommand_atCommandBoundary {s t : State} (hs : AtCommandBoundary s) (h : runCommand s = .next t) :
    AtCommandBoundary t ∧ HoldsNoCommand t := by
  obtain ⟨hfsm, hquiet⟩ := hs
  rcases runCommand_cases (not_busy_of_boundary hfsm) h with
    ⟨-, rfl⟩ | ⟨-, code, -, rfl⟩ | ⟨-, rfl⟩ | ⟨S, d, -, rfl⟩
  · exact ⟨⟨hfsm, hquiet⟩, rfl, rfl⟩
  · exact ⟨⟨.inr rfl, hquiet⟩, rfl, rfl⟩
  · exact ⟨⟨.inl rfl, rfl, rfl, rfl, rfl, rfl⟩, rfl, rfl⟩
  · exact ⟨⟨hfsm, hquiet⟩, rfl, rfl⟩

/-- ERR is NONE exactly in IDLE, and a command keeps it so (R151). -/
theorem runCommand_err_none_iff {s t : State} (hb : s.fsm.busy = false) (herr : s.err = .none ↔ s.fsm = .idle)
    (h : runCommand s = .next t) : t.err = .none ↔ t.fsm = .idle := by
  rcases runCommand_cases hb h with ⟨-, rfl⟩ | ⟨-, code, hcode, rfl⟩ | ⟨-, rfl⟩ | ⟨S, d, -, rfl⟩
  · exact herr
  · simp [hcode]
  · simp
  · exact herr

/-- The invariant at a command boundary. -/
theorem engineInv_iff_of_not_busy {s : State} (hb : s.fsm.busy = false) :
    EngineInv s ↔ SequencerQuiet s ∧ HoldsNoCommand s ∧ (s.err = .none ↔ s.fsm = .idle) := by
  rcases fsm_eq_of_not_busy hb with h | h <;> simp [EngineInv, h]

theorem engineInv_resetOf (cfg : Config) : EngineInv (State.resetOf cfg) :=
  ⟨⟨rfl, rfl, rfl, rfl, rfl⟩, ⟨rfl, rfl⟩, rfl⟩

theorem engineInv_powerOn (s : State) (rest : List HostMove) : EngineInv (s.powerOn rest) :=
  engineInv_resetOf s.cfg

theorem runCommand_accept_engineInv {s t : State} {c : Command} {rest : List HostMove} (hb : s.fsm.busy = false)
    (hs : EngineInv s) (h : runCommand (s.accept c rest) = .next t) : EngineInv t := by
  obtain ⟨hquiet, -, herr⟩ := (engineInv_iff_of_not_busy hb).mp hs
  obtain ⟨⟨hfsm, hquiet'⟩, hnone⟩ :=
    runCommand_atCommandBoundary (s := s.accept c rest) ⟨fsm_eq_of_not_busy hb, hquiet⟩ h
  have herr' := runCommand_err_none_iff (s := s.accept c rest) hb herr h
  exact (engineInv_iff_of_not_busy (not_busy_of_boundary hfsm)).mpr ⟨hquiet', hnone, herr'⟩

/-- The rows of R125 with FSM = PERM keep the invariant. -/
theorem permStep_engineInv {s t : State} (hf : s.fsm = .perm) (hs : EngineInv s) (h : permStep s = .next t) :
    EngineInv t := by
  simp only [EngineInv, hf] at hs
  obtain ⟨⟨hblk, hpbuf, hone⟩, ⟨herr, hresp⟩, hrnd⟩ := hs
  obtain ⟨-, ⟨hlt, rfl⟩ | ⟨-, hnext, rfl⟩ | ⟨-, hlast, hsqz, rfl⟩ | ⟨-, hlast, hsqz, rfl⟩⟩ := permStep_cases h
  · have hrnd' : (s.rnd + 1).toNat ≤ 23 := by
      rw [BitVec.toNat_add, show (1 : BitVec 5).toNat = 1 from rfl]
      omega
    simp only [EngineInv, State.permNextRound_fsm, hf]
    exact ⟨⟨hblk, hpbuf, hone⟩, ⟨herr, hresp⟩, hrnd'⟩
  · exact ⟨⟨hnext, hpbuf, hone⟩, ⟨herr, hresp⟩, rfl⟩
  · exact ⟨⟨herr, hresp⟩, rfl, rfl, hsqz, hpbuf⟩
  · exact ⟨⟨rfl, rfl, rfl, hsqz, rfl⟩, ⟨rfl, rfl⟩, herr⟩

/-- Every row of R125 keeps the invariant. -/
theorem microStep_engineInv {s t : State} (hs : EngineInv s) (h : microStep s = .next t) : EngineInv t := by
  rcases microStep_cases h with ⟨hf, m, -, rfl⟩ | ⟨hf, -, rfl⟩ | ⟨hf, hp⟩ | ⟨hf, rfl⟩
  · simp only [EngineInv, hf] at hs
    obtain ⟨⟨hrnd, -⟩, ⟨herr, hresp⟩, -⟩ := hs
    have hblocks : AbsorbingBlocks (s.padStep m) := by
      have hlen := length_pad_bytes m
      refine ⟨?_, ?_, nofun⟩ <;> simp only [State.padStep_blk, State.padStep_nblk, State.padStep_pbuf] <;> omega
    exact ⟨hblocks, ⟨herr, hresp⟩, hrnd⟩
  · simp only [EngineInv, hf] at hs
    obtain ⟨hblocks, ⟨herr, hresp⟩, -⟩ := hs
    exact ⟨hblocks, ⟨herr, hresp⟩, Nat.zero_le 23⟩
  · exact permStep_engineInv hf hs hp
  · simp only [EngineInv, hf] at hs
    obtain ⟨⟨herr, -⟩, hrnd, hblk, -, -⟩ := hs
    exact ⟨⟨hrnd, hblk, rfl, rfl, rfl⟩, ⟨rfl, rfl⟩, herr⟩

/-- Settles O50: the reset state of any build, the default build among them, is quiet in IDLE. -/
theorem invariantHoldsAtReset : Obligations.InvariantHoldsAtReset :=
  ⟨engineInv_resetOf Config.unbounded, engineInv_resetOf⟩

/-- Settles O51, by the cases of a step: each row of R125 keeps the invariant, and a whole command ends at a command boundary
with ERR NONE exactly in IDLE. -/
theorem everyStepKeepsTheInvariant : Obligations.EveryStepKeepsTheInvariant := by
  intro s t hs h
  rcases step_cases s with ⟨rest, -, hstep⟩ | ⟨-, -, hstep⟩ | ⟨c, rest, -, hb, hstep⟩ | ⟨-, -, hstep⟩ <;>
    rw [hstep] at h
  · obtain rfl := Host.Outcome.next.inj h
    exact engineInv_powerOn s rest
  · exact microStep_engineInv hs h
  · exact runCommand_accept_engineInv hb hs h
  · obtain rfl := Host.Outcome.next.inj h
    exact hs

/-- Settles O52: a step of the micro-step view that is no step of the atomic view takes an acceptance row of R125. -/
theorem microViewKeepsTheInvariant : Obligations.MicroViewKeepsTheInvariant := by
  intro s t hs h
  rcases microViewStep_cases h with hstep | ⟨c, rest, -, hf, hrow⟩
  · exact everyStepKeepsTheInvariant s t hs hstep
  simp only [EngineInv, hf] at hs
  obtain ⟨⟨hrnd, hblk, hnblk, hsqz, hpbuf⟩, -, herr⟩ := hs
  rcases hrow with ⟨blk, -, hlen, rfl⟩ | ⟨m, hdin, -, rfl⟩
  · exact ⟨⟨Nat.one_pos, hlen, fun _ => rfl⟩, ⟨herr, rfl⟩, hrnd⟩
  · exact ⟨⟨hrnd, hblk, hnblk, hsqz, hpbuf⟩, ⟨herr, rfl⟩, congrArg Data.kind hdin⟩

/-- Settles O55: a power-on reset clears every sequencer register, and a whole command writes none of them but by SYS.RESET. -/
theorem commandEndsAtABoundary : Obligations.CommandEndsAtABoundary := by
  refine ⟨fun s rest hi => ⟨s.powerOn rest, by simp only [step, hi], .inl rfl, rfl, rfl, rfl, rfl, rfl⟩, ?_⟩
  intro s t c rest hs hi h
  simp only [step, hi, not_busy_of_boundary hs.1] at h
  exact (runCommand_atCommandBoundary (s := s.accept c rest) hs h).1

end Sys2Proof.Machine
end

section
/-! What a step can do to ERR, STATE and the block counters (rules R14, R19, R21). -/

namespace Sys2Proof.Machine

/-- No row of R125 writes ERR (R21). -/
theorem microStep_err {s t : State} (h : microStep s = .next t) : t.err = s.err := by
  rcases microStep_cases h with ⟨-, m, -, rfl⟩ | ⟨-, -, rfl⟩ | ⟨-, hp⟩ | ⟨-, rfl⟩
  · rfl
  · rfl
  · obtain ⟨-, ⟨-, rfl⟩ | ⟨-, -, rfl⟩ | ⟨-, -, -, rfl⟩ | ⟨-, -, -, rfl⟩⟩ := permStep_cases hp <;> rfl
  · rfl

/-- Settles O48, by the cases of a step and of an accepted command. -/
theorem errHoldsTheFirstError : Obligations.ErrHoldsTheFirstError := by
  intro s t h hne
  rcases step_cases s with ⟨rest, hi, hstep⟩ | ⟨-, -, hstep⟩ | ⟨c, rest, hi, hb, hstep⟩ | ⟨-, -, hstep⟩ <;>
    rw [hstep] at h
  · obtain rfl := Host.Outcome.next.inj h
    exact .inr ⟨rfl, .inl ⟨rest, hi⟩⟩
  · exact absurd (microStep_err h) hne
  · rcases runCommand_cases (s := s.accept c rest) hb h with
      ⟨-, rfl⟩ | ⟨hf, code, hcode, rfl⟩ | ⟨hdec, rfl⟩ | ⟨S, d, -, rfl⟩
    · exact absurd rfl hne
    · exact .inl ⟨hf, rfl, hcode⟩
    · exact .inr ⟨rfl, .inr ⟨c, rest, hi, hdec⟩⟩
    · exact absurd rfl hne
  · obtain rfl := Host.Outcome.next.inj h
    exact absurd rfl hne

/-- Settles O56: between commands only a power-on reset or a command that R14 names puts a new value in STATE. -/
theorem onlyTheNamedCommandsWriteState : Obligations.OnlyTheNamedCommandsWriteState := by
  intro s t hf h hne
  have hquiet := not_busy_of_boundary hf
  rcases step_cases s with ⟨rest, hi, -⟩ | ⟨-, hbusy, -⟩ | ⟨c, rest, hi, hb, hstep⟩ | ⟨-, -, hstep⟩
  · exact .inl ⟨rest, hi⟩
  · exact absurd (hquiet.symm.trans hbusy) (by decide)
  · rw [hstep] at h
    rcases runCommand_cases (s := s.accept c rest) hb h with
      ⟨-, rfl⟩ | ⟨-, code, -, rfl⟩ | ⟨hdec, rfl⟩ | ⟨S, d, hS, rfl⟩
    · exact absurd rfl hne
    · exact absurd rfl hne
    · exact .inr ⟨c, rest, .sysReset, hi, hdec, trivial⟩
    · obtain ⟨i, hdec, hw⟩ := hS hne
      exact .inr ⟨c, rest, i, hi, hdec, hw⟩
  · obtain rfl := Host.Outcome.next.inj (hstep.symm.trans h)
    exact absurd rfl hne

end Sys2Proof.Machine
end

section
/-! The block counters of a bounded build (rules R8, R19, R124): both views keep them within the width BLK_W. -/

namespace Sys2Proof.Machine

/-- R8: the width of a build holds the block count of every message within its bound. -/
theorem blocks_lt_of_wf {cfg : Config} {w len : Nat} (hwf : cfg.wf = true) (hw : cfg.blkWidth = some w)
    (hlen : cfg.exceeds len = false) : len / 136 + 1 < 2 ^ w := by
  cases hb : cfg.maxMsgBytes with
  | none => simp [Config.wf, hw, hb] at hwf
  | some bound =>
    simp only [Config.wf, hw, hb, decide_eq_true_eq] at hwf
    simp only [Config.exceeds, hb, decide_eq_false_iff_not, not_lt] at hlen
    omega

theorem exceeds_zero (cfg : Config) : cfg.exceeds 0 = false := by
  unfold Config.exceeds
  cases cfg.maxMsgBytes <;> simp

theorem countersFit_zero {s : State} (hwf : s.cfg.wf = true) (hn : s.nblk = 0) (hb : s.blk = 0) (hf : s.fsm ≠ .pad) :
    CountersFit s :=
  ⟨hwf, fun w _ => by simp [hn, hb], fun h => absurd h hf⟩

/-- Counters that do not grow past those of a state in which they fit still fit. -/
theorem CountersFit.of_le {s t : State} (hs : CountersFit s) (hcfg : t.cfg = s.cfg) (hn : t.nblk ≤ s.nblk)
    (hb : t.blk ≤ s.blk ∨ t.blk ≤ s.nblk) (hf : t.fsm ≠ .pad) : CountersFit t := by
  obtain ⟨hwf, hfit, -⟩ := hs
  refine ⟨by rwa [hcfg], fun w hw => ?_, fun h => absurd h hf⟩
  obtain ⟨hsn, hsb⟩ := hfit w (by rwa [← hcfg])
  omega

/-- A sequence begins with a block count that fits: that of a message within the bound, or one block (R124, R125). -/
theorem countersFit_of_blocks {s : State} {len : Nat} (hwf : s.cfg.wf = true) (hlen : s.cfg.exceeds len = false)
    (hn : s.nblk = len / 136 + 1) (hb : s.blk = 0) (hf : s.fsm ≠ .pad) : CountersFit s := by
  refine ⟨hwf, fun w hw => ?_, fun h => absurd h hf⟩
  have hlt := blocks_lt_of_wf hwf hw hlen
  omega

theorem runCommand_accept_countersFit {s t : State} {c : Command} {rest : List HostMove} (hb : s.fsm.busy = false)
    (hs : CountersFit s) (h : runCommand (s.accept c rest) = .next t) : CountersFit t := by
  have hf : s.fsm ≠ .pad := by
    rintro hf
    simp [hf, Fsm.busy] at hb
  rcases runCommand_cases (s := s.accept c rest) hb h with ⟨-, rfl⟩ | ⟨-, code, -, rfl⟩ | ⟨-, rfl⟩ | ⟨S, d, -, rfl⟩
  · exact hs.of_le rfl le_rfl (.inl le_rfl) hf
  · exact hs.of_le rfl le_rfl (.inl le_rfl) nofun
  · exact countersFit_zero hs.1 rfl rfl nofun
  · exact hs.of_le rfl le_rfl (.inl le_rfl) hf

theorem microStep_countersFit {s t : State} (hs : CountersFit s) (h : microStep s = .next t) : CountersFit t := by
  rcases microStep_cases h with ⟨hf, m, hd, rfl⟩ | ⟨-, -, rfl⟩ | ⟨hf, hp⟩ | ⟨-, rfl⟩
  · obtain ⟨hwf, -, hmsg⟩ := hs
    have hn : (s.padStep m).nblk = m.length / 136 + 1 := by
      rw [State.padStep_nblk, length_pad_bytes, Nat.mul_div_cancel_left _ (by decide)]
    exact countersFit_of_blocks hwf (hmsg hf m hd) hn rfl nofun
  · exact hs.of_le rfl le_rfl (.inl le_rfl) nofun
  · obtain ⟨-, ⟨-, rfl⟩ | ⟨-, hnext, rfl⟩ | ⟨-, -, -, rfl⟩ | ⟨-, -, -, rfl⟩⟩ := permStep_cases hp
    · exact hs.of_le rfl le_rfl (.inl le_rfl) (by simp [hf])
    · exact hs.of_le rfl le_rfl (.inr hnext.le) nofun
    · exact hs.of_le rfl le_rfl (.inl (Nat.zero_le _)) nofun
    · exact hs.of_le rfl (Nat.zero_le _) (.inl (Nat.zero_le _)) nofun
  · exact hs.of_le rfl (Nat.zero_le _) (.inl le_rfl) nofun

theorem step_countersFit {s t : State} (hs : CountersFit s) (h : step s = .next t) : CountersFit t := by
  rcases step_cases s with ⟨rest, -, hstep⟩ | ⟨-, -, hstep⟩ | ⟨c, rest, -, hb, hstep⟩ | ⟨-, -, hstep⟩ <;>
    rw [hstep] at h
  · obtain rfl := Host.Outcome.next.inj h
    exact countersFit_zero hs.1 rfl rfl nofun
  · exact microStep_countersFit hs h
  · exact runCommand_accept_countersFit hb hs h
  · obtain rfl := Host.Outcome.next.inj h
    exact hs

/-- Settles O54: a sequence begins with a block count that fits, BLK stays below NBLK, and SP.HASH enters PAD only with a message
within the bound. -/
theorem blockCountersFitTheirWidth : Obligations.BlockCountersFitTheirWidth := by
  refine ⟨fun cfg hwf => countersFit_zero hwf rfl rfl nofun, ?_⟩
  rintro s t hs (h | h)
  · exact step_countersFit hs h
  rcases microViewStep_cases h with hstep | ⟨c, rest, -, -, ⟨blk, -, -, rfl⟩ | ⟨m, hdin, hlen, rfl⟩⟩
  · exact step_countersFit hs hstep
  · exact countersFit_of_blocks hs.1 (exceeds_zero s.cfg) rfl rfl nofun
  · obtain ⟨hwf, hfit, -⟩ := hs
    refine ⟨hwf, hfit, fun _ m' hm' => ?_⟩
    obtain rfl := Data.bytes.inj (hdin.symm.trans hm')
    exact hlen

end Sys2Proof.Machine
end

section
/-! What a response can depend on (rules R15, R27, R158): the pure units answer from the operand alone, and no command shows the
capacity bits of STATE. -/

namespace Sys2Proof.Machine

theorem IsPureUnit.ne_sysReset {i : Instr} (h : IsPureUnit i) : i ≠ .sysReset := by
  rintro rfl
  exact h

theorem IsPureUnit.not_writesState {i : Instr} (h : IsPureUnit i) : ¬ WritesState i := by
  cases i with
  | spInit | spAbsorb | spHash | sysReset => exact fun _ => h
  | _ => exact id

theorem IsPureUnit.sameReads {i : Instr} (h : IsPureUnit i) (s t : State) : SameReads s t i := by
  cases i with
  | sysStatus | spSqueeze | spHash => exact h.elim
  | _ => trivial

/-- Settles O57: a pure unit reads nothing but the operand, so that two IDLE states take the same branch. -/
theorem pureUnitsHoldNoState : Obligations.PureUnitsHoldNoState := by
  intro i hpure s t hs h
  refine ⟨fun ht => ?_, fun s' t' hs' hcmd hdin h' => ?_⟩
  · rcases exec_idle_sameBranch hpure.ne_sysReset hs hs rfl (.refl s i) with ⟨code, -, hx, -⟩ | ⟨S, T, d, hS, hx, -⟩ <;>
      obtain rfl := Host.Outcome.next.inj (h.symm.trans hx)
    · cases ht
    · obtain ⟨rfl, -⟩ := hS.eq_of_not_writesState hpure.not_writesState
      rfl
  · rcases exec_idle_sameBranch hpure.ne_sysReset hs hs' hdin (hpure.sameReads s s') with
      ⟨code, -, hx, hy⟩ | ⟨S, T, d, -, hx, hy⟩ <;>
      obtain rfl := Host.Outcome.next.inj (h.symm.trans hx) <;>
      obtain rfl := Host.Outcome.next.inj (h'.symm.trans hy)
    · simp only [State.raise_resp, hcmd]
    · simp only [State.ok_resp, State.setState_cmd, hcmd]

/-- The digest is taken from the rate bits alone (R37). -/
theorem squeezeDigest_congr {S T : KState} (h : S.setWidth 1088 = T.setWidth 1088) :
    squeezeDigest S = squeezeDigest T := by
  have hslice (A : KState) : slice (toBits A) 0 256 = (List.range 256).map A.getLsbD := by
    simp [slice, toBits, ← List.map_take, List.take_range]
  have hbit (k : Nat) (hk : k < 256) : S.getLsbD k = T.getLsbD k := by
    have hw := congrArg (·.getLsbD k) h
    simpa [BitVec.getLsbD_setWidth, show k < 1088 by omega] using hw
  have hbits : (List.range 256).map S.getLsbD = (List.range 256).map T.getLsbD :=
    List.map_congr_left fun k hk => hbit k (List.mem_range.mp hk)
  rw [squeezeDigest, squeezeDigest, hslice, hslice, hbits]

/-- A state that differs only in the capacity bits is the same state with another value in STATE. -/
theorem SameButCapacity.eq_setState {s t : State} (h : SameButCapacity s t) : t = s.setState t.state :=
  congrArg (·.setState t.state) h.2.symm

/-- A command other than SP.ABSORB leaves the rate bits alike where they were alike. -/
theorem StatesAfter.setWidth_eq {i : Instr} {s t : State} {S T : KState} (h : StatesAfter s t i S T) (hi : i ≠ .spAbsorb)
    (hst : s.state.setWidth 1088 = t.state.setWidth 1088) : S.setWidth 1088 = T.setWidth 1088 := by
  cases i with
  | spAbsorb => exact absurd rfl hi
  | spInit => exact congrArg (·.setWidth 1088) h
  | spHash => exact congrArg (·.setWidth 1088) h
  | _ =>
    obtain ⟨rfl, rfl⟩ := h
    exact hst

/-- What a command reads for its branch and its result is alike where the rate bits are alike. -/
theorem sameReads_setState (i : Instr) {s : State} {T : KState} (h : s.state.setWidth 1088 = T.setWidth 1088) :
    SameReads s (s.setState T) i := by
  cases i with
  | spSqueeze => exact squeezeDigest_congr h.symm
  | sysStatus => rfl
  | spHash => rfl
  | _ => trivial

/-- Settles O59: in FAULT no command reads STATE, and in IDLE the two states take the same branch. -/
theorem capacityBitsAreNeverExposed : Obligations.CapacityBitsAreNeverExposed := by
  intro s t i hf hst
  have hrate := hst.1
  rw [hst.eq_setState]
  generalize t.state = T at hrate ⊢
  by_cases hreset : i = .sysReset
  · subst hreset
    exact ⟨_, _, exec_sysReset hf, exec_sysReset hf, rfl, fun _ => ⟨rfl, rfl⟩⟩
  rcases hf with hidle | hfault
  · rcases exec_idle_sameBranch (t := s.setState T) hreset hidle hidle rfl (sameReads_setState i hrate) with
      ⟨code, -, hx, hy⟩ | ⟨S', T', d, hS, hx, hy⟩
    · exact ⟨_, _, hx, hy, rfl, fun _ => ⟨hrate, rfl⟩⟩
    · exact ⟨_, _, hx, hy, rfl, fun hi => ⟨hS.setWidth_eq hi hrate, rfl⟩⟩
  · by_cases hstatus : i = .sysStatus
    · subst hstatus
      exact ⟨_, _, exec_sysStatus_fault hfault, exec_sysStatus_fault hfault, rfl, fun _ => ⟨hrate, rfl⟩⟩
    · exact ⟨_, _, exec_fault hfault hreset hstatus, exec_fault hfault hreset hstatus, rfl, fun _ => ⟨hrate, rfl⟩⟩

end Sys2Proof.Machine
end

section
/-! Bytes laid over the state (rules R34 to R36): the number a bit sequence stands for, of bytes and of a lane. -/

namespace Sys2Proof.Machine

theorem bitsVal_append (s t : Bits) : bitsVal (s ++ t) = bitsVal s + 2 ^ s.length * bitsVal t := by
  induction s with
  | nil => simp
  | cons b s ih =>
    rw [List.cons_append, bitsVal_cons, ih, bitsVal_cons, List.length_cons, Nat.pow_succ]
    ring

theorem toNat_ofBits {n : Nat} {s : Bits} (h : s.length = n) : (ofBits n s).toNat = bitsVal s := by
  subst h
  rw [ofBits, BitVec.toNat_ofNat, Nat.mod_eq_of_lt (bitsVal_lt s)]

@[simp] theorem bitsVal_toBits {n : Nat} (v : BitVec n) : bitsVal (toBits v) = v.toNat := by
  rw [← toNat_ofBits (length_toBits v), ofBits_toBits]

theorem bytesToBits_cons (b : Byte) (m : List Byte) : bytesToBits (b :: m) = toBits b ++ bytesToBits m := rfl

theorem bytesToBits_append (m n : List Byte) : bytesToBits (m ++ n) = bytesToBits m ++ bytesToBits n :=
  List.flatMap_append

/-- A byte sequence stands for its little-endian number (R34, R35). -/
theorem bitsVal_bytesToBits (m : List Byte) :
    bitsVal (bytesToBits m) = ((List.range m.length).map fun j => (m.getD j 0).toNat * 2 ^ (8 * j)).sum := by
  induction m with
  | nil => rfl
  | cons b m ih =>
    have hshift (j : Nat) : (m.getD j 0).toNat * 2 ^ (8 * (j + 1)) = 2 ^ 8 * ((m.getD j 0).toNat * 2 ^ (8 * j)) := by
      rw [Nat.mul_add, Nat.pow_add]
      ring
    rw [bytesToBits_cons, bitsVal_append, bitsVal_toBits, length_toBits, ih, ← List.sum_map_mul_left,
      List.length_cons, List.range_succ_eq_map, List.map_cons, List.sum_cons, List.map_map]
    simp only [Function.comp_def, Nat.succ_eq_add_one, List.getD_cons_succ, hshift, List.getD_cons_zero, Nat.mul_zero,
      Nat.pow_zero, Nat.mul_one]

/-- The bits of the bytes `a ..< a + n` are the bits `8a ..< 8a + 8n` (R34). -/
theorem slice_bytesToBits (m : List Byte) {a n : Nat} (h : a + n ≤ m.length) :
    slice (bytesToBits m) (8 * a) (8 * n) = bytesToBits ((m.drop a).take n) := by
  have htake : (m.take a).length = a := List.length_take_of_le (by omega)
  have hmid : ((m.drop a).take n).length = n := List.length_take_of_le (by rw [List.length_drop]; omega)
  have hm : bytesToBits m =
      bytesToBits (m.take a) ++ (bytesToBits ((m.drop a).take n) ++ bytesToBits ((m.drop a).drop n)) := by
    rw [← bytesToBits_append, ← bytesToBits_append, List.take_append_drop, List.take_append_drop]
  rw [hm, slice, List.drop_left' (by rw [length_bytesToBits, htake]),
    List.take_left' (by rw [length_bytesToBits, hmid])]

/-- A lane of the state made of 1600 bits is made of its own 64 of them (R11). -/
theorem lane_ofBits (s : Bits) (x y : Fin 5) :
    lane (ofBits 1600 s) x y = ofBits 64 (slice s (64 * (x.val + 5 * y.val)) 64) := by
  apply BitVec.eq_of_getLsbD_eq
  intro z hz
  have hi : 64 * (x.val + 5 * y.val) + z < 1600 := by omega
  rw [lane, BitVec.getLsbD_extractLsb', getLsbD_ofBits, getLsbD_ofBits, getD_slice _ _ _ _ hz]
  simp [hz, hi]

/-- Eight bytes make a little-endian lane (R35). -/
theorem toNat_ofBits_bytesToBits {m : List Byte} (h : m.length = 8) :
    (ofBits 64 (bytesToBits m)).toNat =
      ((List.range 8).map fun j => (m.getD j 0).toNat * 2 ^ (8 * j)).sum := by
  rw [toNat_ofBits (by rw [length_bytesToBits, h]), bitsVal_bytesToBits, h]

/-- Settles O19: the 64 bits of lane `i` are the bits of the bytes `8i ..< 8i + 8`. -/
theorem lanesAreLittleEndianBytes : Obligations.LanesAreLittleEndianBytes := by
  intro m x y hm
  generalize hi : x.val + 5 * y.val = i
  have hfits : 8 * i + 8 ≤ m.length := by omega
  have hbytes : ((m.drop (8 * i)).take 8).length = 8 := List.length_take_of_le (by rw [List.length_drop]; omega)
  have hslice : slice (bytesToBits m) (64 * i) 64 = bytesToBits ((m.drop (8 * i)).take 8) := by
    rw [← slice_bytesToBits m hfits, ← Nat.mul_assoc]
  rw [lane_ofBits, hi, hslice, toNat_ofBits_bytesToBits hbytes]
  refine congrArg List.sum (List.map_congr_left fun j hj => ?_)
  have hj8 : j < 8 := List.mem_range.mp hj
  simp [List.getD_eq_getElem?_getD, hj8]

end Sys2Proof.Machine
end

section
/-! A command taken from the host, and the same command again (rules R30, R39, R40). -/

namespace Sys2Proof.Machine

/-- Settles O6: between commands a step accepts the command, and an accepted word that decodes runs its command. -/
theorem stepRunsTheDecodedCommand : Obligations.StepRunsTheDecodedCommand := by
  intro s c rest i hf hi hdec
  have hstep : step s = runCommand (s.accept c rest) := by simp [step, hi, not_busy_of_boundary hf]
  rw [hstep, runCommand, State.accept_cmd, hdec]
  rfl

/-- Where the second of two executions starts from what the first left in STATE, it leaves that there again, SP.ABSORB
apart (R40). -/
theorem StatesAfter.eq_of_repeated {i : Instr} {s t : State} {S T : KState} (h : StatesAfter s t i S T)
    (hi : i ≠ .spAbsorb) (ht : t.state = S) : T = S := by
  cases i with
  | spAbsorb => exact absurd rfl hi
  | spInit => exact h.symm
  | spHash => exact h.symm
  | _ => exact h.2.trans ht

/-- Of what a command reads, one that executes can write STATE alone, and only if R14 names it. -/
theorem sameReads_of_state {i : Instr} {s t : State} (herr : t.err = s.err) (hcfg : t.cfg = s.cfg)
    (hstate : ¬ WritesState i → t.state = s.state) : SameReads s t i := by
  cases i with
  | sysStatus => exact herr
  | spSqueeze => exact congrArg squeezeDigest (hstate id)
  | spHash => exact hcfg
  | _ => trivial

/-- A completed command, executed again on the same operand where STATE holds what it left there, answers the same and
writes nothing (R40). -/
theorem exec_idle_repeated {i : Instr} {s t : State} {S : KState} {d : Data} (hreset : i ≠ .sysReset)
    (habsorb : i ≠ .spAbsorb) (hs : s.fsm = .idle) (hx : exec i s = .next ((s.setState S).ok d))
    (hS : ¬ WritesState i → S = s.state) (ht : t.fsm = .idle) (hdin : t.din = s.din) (hstate : t.state = S)
    (herr : t.err = s.err) (hcfg : t.cfg = s.cfg) : exec i t = .next (t.ok d) := by
  have hreads : SameReads s t i := sameReads_of_state herr hcfg fun hw => hstate.trans (hS hw)
  rcases exec_idle_sameBranch hreset hs ht hdin hreads with ⟨code, -, hx', -⟩ | ⟨S', T, d', hT, hx', hy⟩ <;>
    have heq := Host.Outcome.next.inj (hx.symm.trans hx')
  · have hfault : s.fsm = .fault := congrArg State.fsm heq
    rw [hs] at hfault
    cases hfault
  · obtain rfl : S = S' := congrArg State.state heq
    obtain rfl : d = d' := by simpa using congrArg State.resp heq
    rw [hy, hT.eq_of_repeated habsorb hstate, ← hstate]
    rfl

/-- Settles O58: the first execution completes, and the second takes the same branch and finds in STATE what it would
write. -/
theorem repeatingACommandChangesNothing : Obligations.RepeatingACommandChangesNothing := by
  intro i s t hi hs h ht
  have hreset : i ≠ .sysReset := by
    rintro rfl
    simp [IsPureUnit] at hi
  have habsorb : i ≠ .spAbsorb := by
    rintro rfl
    simp [IsPureUnit] at hi
  rcases exec_idle_sameBranch hreset hs hs rfl (.refl s i) with ⟨code, -, hx, -⟩ | ⟨S, T, d, hS, hx, -⟩ <;>
    obtain rfl := Host.Outcome.next.inj (h.symm.trans hx)
  · cases ht
  · exact ⟨_, exec_idle_repeated hreset habsorb hs hx (fun hw => (hS.eq_of_not_writesState hw).1) ht rfl rfl rfl rfl,
      rfl, rfl⟩

end Sys2Proof.Machine
end

section
/-! The command word and its fields (rules R51 to R54): a row of the opcode map selects only words its commands encode to, so
that decoder and encoder are inverse to each other and the legal words are those whose fields R54 leaves. -/

namespace Sys2Proof.Machine

/-- A word is its three fields in the layout of R51. -/
theorem fields_append (w : Word16) : rsvField w ++ irField w ++ opcField w = w := by
  apply BitVec.eq_of_getLsbD_eq
  intro k hk
  simp only [rsvField, irField, opcField, BitVec.getLsbD_append, BitVec.getLsbD_extractLsb']
  interval_cases k <;> simp

/-- A word with RSV = 0 and the other two fields of a command is the command's word. -/
theorem encode_eq_of_fields {w : Word16} {i : Instr} (hrsv : rsvField w = 0) (hir : irField w = i.irBits)
    (hopc : opcField w = i.opcode) : encode i = w := by
  rw [encode, ← hopc, ← hir, ← hrsv, fields_append]

theorem irBits_kfRound (ir : BitVec 5) : (Instr.kfRound ir.toNat).irBits = ir := by simp [Instr.irBits]

/-- KF.ROUND is read back from its word with every value of the 5-bit IR field. -/
theorem decode_encode_kfRound (ir : BitVec 5) : decode (encode (.kfRound ir.toNat)) = .ok (.kfRound ir.toNat) := by
  revert ir
  decide

/-- Settles O3: the commands but KF.ROUND have one word each, and KF.ROUND one for each value of the IR field. -/
theorem decodeOfEncode : Obligations.DecodeOfEncode := by
  intro i hwf
  cases i with
  | kfRound ir =>
    have hir : ir < 2 ^ 5 := of_decide_eq_true hwf
    obtain ⟨b, rfl⟩ : ∃ b : BitVec 5, b.toNat = ir := ⟨.ofNatLT ir hir, rfl⟩
    exact decode_encode_kfRound b
  | _ => rfl

/-- R53: the row of KF.ROUND leaves the IR field free, every other row fixes the whole word, that of its one command. -/
theorem opcodeTable_row {r : OpcodeRow} (hr : r ∈ opcodeTable) :
    (r.mask = 0xE0FF ∧ r.pattern = 0x0020 ∧ ∀ ir : BitVec 5, r.build ir.toNat = .kfRound ir.toNat) ∨
    (r.mask = 0xFFFF ∧ ∀ ir : BitVec 5, (r.build ir.toNat).wf = true ∧ encode (r.build ir.toNat) = r.pattern) := by
  revert r
  decide

/-- The mask of KF.ROUND's row picks the fields OPC and RSV (R53). -/
theorem fields_of_kfRound_mask {w : Word16} (h : w &&& 0xE0FF = 0x0020) : opcField w = 0x20 ∧ rsvField w = 0 := by
  constructor
  · calc opcField w = opcField (w &&& 0xE0FF) := by
          rw [opcField, opcField, BitVec.extractLsb'_and]
          exact BitVec.and_allOnes.symm
      _ = 0x20 := by rw [h]; rfl
  · calc rsvField w = rsvField (w &&& 0xE0FF) := by
          rw [rsvField, rsvField, BitVec.extractLsb'_and]
          exact BitVec.and_allOnes.symm
      _ = 0 := by rw [h]; rfl

/-- Settles O4: the row that selects a word fixes every bit the command does not hold. -/
theorem encodeOfDecode : Obligations.EncodeOfDecode := by
  intro w i h
  unfold decode at h
  split at h
  case h_2 => cases h
  case h_1 r hfind =>
    obtain rfl := Except.ok.inj h
    have hsel : w &&& r.mask = r.pattern :=
      beq_iff_eq.mp (List.find?_some (p := fun r : OpcodeRow => r.selects w) hfind)
    rcases opcodeTable_row (List.mem_of_find?_eq_some hfind) with ⟨hmask, hpattern, hbuild⟩ | ⟨hmask, hbuild⟩
    · rw [hmask, hpattern] at hsel
      obtain ⟨hopc, hrsv⟩ := fields_of_kfRound_mask hsel
      rw [hbuild]
      exact ⟨decide_eq_true (irField w).isLt, encode_eq_of_fields hrsv (irBits_kfRound _).symm hopc⟩
    · have hw : w = r.pattern := by rw [← hsel, hmask]; exact BitVec.and_allOnes.symm
      obtain ⟨hwf, henc⟩ := hbuild (irField w)
      exact ⟨hwf, henc.trans hw.symm⟩

/-- Settles O2, by evaluation of the decoder on the eleven words. -/
theorem specWordsDecode : Obligations.SpecWordsDecode := by
  unfold Obligations.SpecWordsDecode
  decide

/-- The grounds of R54 (a) to (c) leave the words of assigned OPC with RSV = 0, and IR = 0 but for KF.ROUND. -/
theorem unassignedByR54_iff (opc : BitVec 8) : UnassignedByR54 opc.toNat ↔ opc ∉ assignedOpcodes := by
  have hlt : opc.toNat < 256 := opc.isLt
  simp only [UnassignedByR54, assignedOpcodes, List.mem_cons, List.not_mem_nil, ← BitVec.toNat_inj,
    BitVec.ofNat_eq_ofNat, BitVec.toNat_ofNat, Nat.reducePow, Nat.reduceMod, or_false]
  omega

/-- Every assigned OPC is that of a command, with the IR field free for KF.ROUND and 0 for the others (R51, R53). -/
theorem exists_instr_of_fields {opc : BitVec 8} (hopc : opc ∈ assignedOpcodes) (ir : BitVec 5)
    (hir : ir = 0 ∨ opc = 0x20) : ∃ i : Instr, i.wf = true ∧ i.irBits = ir ∧ i.opcode = opc := by
  rcases hir with rfl | rfl
  · have hrow : ∀ opc ∈ assignedOpcodes, ∃ r ∈ opcodeTable,
        (r.build 0).wf = true ∧ (r.build 0).irBits = 0 ∧ (r.build 0).opcode = opc := by decide
    obtain ⟨r, -, hr⟩ := hrow opc hopc
    exact ⟨r.build 0, hr⟩
  · exact ⟨.kfRound ir.toNat, decide_eq_true ir.isLt, irBits_kfRound ir, rfl⟩

/-- The words that decode are those R54 leaves. -/
theorem decode_ok_iff (w : Word16) :
    (∃ i, decode w = .ok i) ↔ opcField w ∈ assignedOpcodes ∧ rsvField w = 0 ∧ (irField w = 0 ∨ opcField w = 0x20) := by
  constructor
  · rintro ⟨i, h⟩
    obtain ⟨-, rfl⟩ := encodeOfDecode w i h
    obtain ⟨hopc, hir, hrsv⟩ := Laws.WordFields.fields_of_layout i.irBits i.opcode
    rw [encode, hopc, hir, hrsv]
    cases i <;> simp [Instr.opcode, Instr.irBits, assignedOpcodes]
  · rintro ⟨hopc, hrsv, hir⟩
    obtain ⟨i, hwf, hir', hopc'⟩ := exists_instr_of_fields hopc (irField w) hir
    have hw := encode_eq_of_fields hrsv hir'.symm hopc'.symm
    exact ⟨i, hw ▸ decodeOfEncode i hwf⟩


/-- A word is legal or illegal, never both. -/
theorem decode_error_iff (w : Word16) : (∃ e, decode w = .error e) ↔ ¬ ∃ i, decode w = .ok i := by
  cases decode w with
  | error e => simp
  | ok i => simp

end Sys2Proof.Machine
end

section
/-! What becomes of a presented word, legal or not (rules R39, R54, R92, R152). -/

namespace Sys2Proof.Machine

/-- R54: an illegal word raises ILLEGAL_OPCODE in IDLE. -/
theorem runCommand_illegal_idle {s : State} {e : IllegalWord} (hf : s.fsm = .idle) (hdec : decode s.cmd = .error e) :
    runCommand s = raises s .illegalOpcode := by
  simp only [runCommand, hdec]
  exact State.inIdle_idle hf _

/-- R152: an illegal word is answered FAULTED in FAULT. -/
theorem runCommand_illegal_fault {s : State} {e : IllegalWord} (hf : s.fsm = .fault) (hdec : decode s.cmd = .error e) :
    runCommand s = isAnsweredFaulted s := by
  simp only [runCommand, hdec]
  exact State.inIdle_fault hf _

/-- A legal word runs its command. -/
theorem runCommand_ok {s : State} {i : Instr} (hdec : decode s.cmd = .ok i) : runCommand s = exec i s := by
  simp only [runCommand, hdec]

/-- R92: a round index past 23 raises ROUND_INDEX in IDLE, whatever the operand. -/
theorem exec_kfRound_roundIndex {s : State} {ir : Nat} (hf : s.fsm = .idle) (hir : 24 ≤ ir) :
    exec (.kfRound ir) s = raises s .roundIndex := by
  simp only [exec, execKfRound, State.inIdle_idle hf, dif_neg (Nat.not_lt.mpr hir)]
  rfl

/-- The KF.ROUND word of R51, from its fields. -/
theorem decode_kfRound_word {w : Word16} (hopc : opcField w = 0x20) (hrsv : rsvField w = 0) :
    decode w = .ok (.kfRound (irField w).toNat) := by
  have hw := encode_eq_of_fields (i := .kfRound (irField w).toNat) hrsv (irBits_kfRound _).symm hopc
  calc decode w = decode (encode (.kfRound (irField w).toNat)) := by rw [hw]
    _ = .ok (.kfRound (irField w).toNat) := decode_encode_kfRound _

/-- Settles O5: the illegal words are those the fields of R54 do not leave legal. -/
theorem illegalWordsAreThoseOfR54 : Obligations.IllegalWordsAreThoseOfR54 := by
  refine ⟨fun w => ?_, fun s e hf hdec => runCommand_illegal_idle hf hdec, ?_⟩
  · rw [decode_error_iff, decode_ok_iff, unassignedByR54_iff]
    tauto
  · rintro s w hf rfl hopc hrsv hir
    have hdec := decode_kfRound_word hopc hrsv
    exact ⟨hdec, (runCommand_ok hdec).trans (exec_kfRound_roundIndex hf hir)⟩

/-- Between commands a step accepts the presented command and runs it (R39). -/
theorem step_command {s : State} {c : Command} {rest : List HostMove} (hf : s.fsm = .idle ∨ s.fsm = .fault)
    (hi : s.inbox = .command c :: rest) : step s = runCommand (s.accept c rest) := by
  simp [step, hi, not_busy_of_boundary hf]

/-- Settles O7: between commands the step runs the word, and an illegal word is answered by the value of FSM alone. -/
theorem stepOnIllegalWord : Obligations.StepOnIllegalWord := by
  intro s c rest e hi hdec
  refine ⟨fun hf => ?_, fun hf => ?_⟩
  · exact (step_command (.inl hf) hi).trans (runCommand_illegal_idle (s := s.accept c rest) hf hdec)
  · exact (step_command (.inr hf) hi).trans (runCommand_illegal_fault (s := s.accept c rest) hf hdec)

end Sys2Proof.Machine
end

section
/-! The one response of every command (rule R55): the fields of the response word, and the answers a command can get. -/

namespace Sys2Proof.Machine

/-- The fields of the response word lie where R55 lays them. -/
theorem respWord_fields (st : RespStatus) (code : BitVec 4) (opce : BitVec 8) :
    (respWord st code opce).extractLsb' 8 8 = opce ∧ (respWord st code opce).extractLsb' 4 4 = code ∧
      (respWord st code opce).extractLsb' 2 2 = 0 ∧ (respWord st code opce).extractLsb' 0 2 = st.bits := by
  refine ⟨?_, ?_, ?_, ?_⟩ <;> apply BitVec.eq_of_getLsbD_eq <;> intro k hk <;>
    simp only [respWord, BitVec.getLsbD_extractLsb', BitVec.getLsbD_append, hk] <;>
    (interval_cases k <;> simp)

/-- What can become of a command of `s` (R55, R151, R152): it completes with data of which `P` holds, it raises an error in
IDLE, or it is answered FAULTED. -/
inductive Answered (P : Data → Prop) (s : State) : Result → Prop
  | completed (t : State) {d : Data} (hd : P d) (hcmd : t.cmd = s.cmd) (hinbox : t.inbox = s.inbox) :
    Answered P s (.next (t.ok d))
  | raised {code : ErrCode} (hcode : code ≠ .none) (hf : s.fsm = .idle) : Answered P s (.next (s.raise code))
  | faulted (hf : s.fsm = .fault) : Answered P s (.next s.answerFaulted)

section
variable {P : Data → Prop} {s : State} (hf : s.fsm = .idle)
include hf

theorem Answered.require {x : Result} {code : ErrCode} (condition : Bool) (hcode : code ≠ .none) (h : Answered P s x) :
    Answered P s (s.require condition code x) := by
  cases condition with
  | true => exact h
  | false => exact .raised hcode hf

theorem Answered.operandKind : Answered P s (.next (s.raise .operandKind)) := .raised (by decide) hf

theorem Answered.takeNone {x : Result} (h : Answered P s x) : Answered P s (s.takeNone x) := by
  unfold State.takeNone
  cases s.din with
  | none => exact h
  | _ => exact .operandKind hf

theorem Answered.takeBytes {f : List Byte → Result} (h : ∀ m, Answered P s (f m)) : Answered P s (s.takeBytes f) := by
  unfold State.takeBytes
  cases s.din with
  | bytes m => exact h m
  | _ => exact .operandKind hf

theorem Answered.takeBits {f : Bits → Result} (h : ∀ b, Answered P s (f b)) : Answered P s (s.takeBits f) := by
  unfold State.takeBits
  cases s.din with
  | bits b => exact h b
  | _ => exact .operandKind hf

theorem Answered.takeLane {f : Lane → Result} (h : ∀ v, Answered P s (f v)) : Answered P s (s.takeLane f) := by
  unfold State.takeLane
  cases s.din with
  | lane v => exact h v
  | _ => exact .operandKind hf

theorem Answered.takeState {f : KState → Result} (h : ∀ S, Answered P s (f S)) : Answered P s (s.takeState f) := by
  unfold State.takeState
  cases s.din with
  | state S => exact h S
  | _ => exact .operandKind hf

end

theorem Answered.write {P : Data → Prop} {s : State} (S : KState) {d : Data} (hd : P d) :
    Answered P s (.next ((s.setState S).ok d)) := .completed _ hd rfl rfl

theorem Answered.ok {P : Data → Prop} {s : State} {d : Data} (hd : P d) : Answered P s (.next (s.ok d)) :=
  .completed s hd rfl rfl

theorem Answered.mono {P Q : Data → Prop} {s : State} {x : Result} (h : Answered P s x) (hPQ : ∀ d, P d → Q d) :
    Answered Q s x := by
  cases h with
  | completed t hd hcmd hinbox => exact .completed t (hPQ _ hd) hcmd hinbox
  | raised hcode hf => exact .raised hcode hf
  | faulted hf => exact .faulted hf

/-- In IDLE every command completes with a result of its kind or raises an error (R53, R153). -/
theorem exec_idle_answered (i : Instr) {s : State} (hf : s.fsm = .idle) :
    Answered (·.kind = i.resultKind) s (exec i s) := by
  have inIdle {x : Result} (h : Answered (·.kind = i.resultKind) s x) :
      Answered (·.kind = i.resultKind) s (s.inIdle x) := by
    rwa [State.inIdle_idle hf]
  cases i with
  | sysNop => exact inIdle (.takeNone hf (.ok rfl))
  | sysReset =>
    rw [exec_sysReset (.inl hf)]
    exact .completed s.resetRegs rfl rfl rfl
  | sysStatus =>
    simp only [exec, execSysStatus, hf]
    exact .takeNone hf (.ok rfl)
  | cvB2bits => exact inIdle (.takeBytes hf fun m => .ok rfl)
  | cvBits2b => exact inIdle (.takeBits hf fun b => .require hf _ (by decide) (.ok rfl))
  | cvLane2bits => exact inIdle (.takeLane hf fun v => .ok rfl)
  | cvBits2lane => exact inIdle (.takeBits hf fun b => .require hf _ (by decide) (.ok rfl))
  | kfRound ir =>
    rcases Nat.lt_or_ge ir 24 with hir | hir
    · simp only [exec, execKfRound, dif_pos hir]
      exact inIdle (.takeState hf fun S => .ok rfl)
    · rw [exec_kfRound_roundIndex hf hir]
      exact .raised (by decide) hf
  | kfPermute => exact inIdle (.takeState hf fun S => .ok rfl)
  | pdPad => exact inIdle (.takeBits hf fun b => .require hf _ (by decide) (.ok rfl))
  | spInit => exact inIdle (.takeNone hf (.write _ rfl))
  | spAbsorb =>
    exact inIdle (.takeBits hf fun b => .require hf _ (by decide) (.write _ rfl))
  | spSqueeze => exact inIdle (.takeNone hf (.ok rfl))
  | spHash => exact inIdle (.takeBytes hf fun m => .require hf _ (by decide) (.write _ rfl))

/-- In FAULT a command completes (SYS.RESET, SYS.STATUS) or is answered FAULTED (R152). -/
theorem exec_fault_answered (i : Instr) {s : State} (hf : s.fsm = .fault) :
    Answered (·.kind = i.resultKind) s (exec i s) := by
  by_cases hreset : i = .sysReset
  · subst hreset
    rw [exec_sysReset (.inr hf)]
    exact .completed s.resetRegs rfl rfl rfl
  by_cases hstatus : i = .sysStatus
  · subst hstatus
    rw [exec_sysStatus_fault hf]
    exact .ok rfl
  · rw [exec_fault hf hreset hstatus]
    exact .faulted hf

/-- At a command boundary every accepted word, legal or not, is answered (R55). -/
theorem runCommand_answered {s : State} (hf : s.fsm = .idle ∨ s.fsm = .fault) :
    Answered (fun d => ∃ i, decode s.cmd = .ok i ∧ d.kind = i.resultKind) s (runCommand s) := by
  cases hdec : decode s.cmd with
  | error e =>
    rcases hf with hf | hf
    · rw [runCommand_illegal_idle hf hdec]
      exact .raised (code := .illegalOpcode) (by decide) hf
    · rw [runCommand_illegal_fault hf hdec]
      exact .faulted hf
  | ok i =>
    rw [runCommand_ok hdec]
    exact (hf.elim (exec_idle_answered i) (exec_fault_answered i)).mono fun d hd => ⟨i, rfl, hd⟩

/-- The class of an error code, as the ST field of its response has it (R150). -/
theorem status_bits_of_ne_none {code : ErrCode} (h : code ≠ .none) :
    code.status.bits = if code ∈ [.blockLength, .bitCount, .laneLength, .msgLength] then 1 else 2 := by
  cases code with
  | none => exact absurd rfl h
  | _ => rfl

/-- Settles O49: the command is accepted and answered, and each kind of answer has the fields of its response word. -/
theorem everyCommandGetsOneResponse : Obligations.EveryCommandGetsOneResponse := by
  intro s c rest hf hi
  have hanswered := runCommand_answered (s := s.accept c rest) hf
  rw [← step_command hf hi] at hanswered
  generalize step s = x at hanswered ⊢
  cases hanswered with
  | completed t hd hcmd hinbox =>
    obtain ⟨hopce, hcode, hzero, hst⟩ := respWord_fields .ok 0 (opcField t.cmd)
    exact ⟨_, _, rfl, rfl, hinbox, hopce.trans (congrArg opcField hcmd), hzero, .inl ⟨hst, hcode, hd⟩⟩
  | @raised code hne hidle =>
    obtain ⟨hopce, hcode, hzero, hst⟩ := respWord_fields code.status code.bits (opcField c.word)
    exact ⟨_, _, rfl, rfl, rfl, hopce, hzero, .inr (.inl ⟨hidle, rfl, hcode, rfl, hst.trans (status_bits_of_ne_none hne)⟩)⟩
  | faulted hfault =>
    obtain ⟨hopce, hcode, hzero, hst⟩ := respWord_fields .faulted s.err.bits (opcField c.word)
    exact ⟨_, _, rfl, rfl, rfl, hopce, hzero, .inr (.inr ⟨hfault, hst, hcode, rfl, rfl⟩)⟩

end Sys2Proof.Machine
end

section
/-! Sequences of commands run by the step (rules R39, R57, R129): what a presented sequence leaves in STATE and what its last
command answers, put together command by command. -/

namespace Sys2Proof.Machine

theorem runWith_succ {f : State → Result} {s t : State} (h : f s = .next t) (n : Nat) :
    runWith f (n + 1) s = runWith f n t := by simp only [runWith, h]

/-- Steps taken in a row: first `m`, then `n`. -/
theorem runWith_add {f : State → Result} {m : Nat} {s t : State} (h : runWith f m s = .next t) (n : Nat) :
    runWith f (m + n) s = runWith f n t := by
  induction m generalizing s with
  | zero =>
    obtain rfl := Host.Outcome.next.inj h
    rw [Nat.zero_add]
  | succ m ih =>
    cases hs : f s with
    | next s' =>
      rw [runWith_succ hs] at h
      rw [Nat.succ_add, runWith_succ hs, ih h]
    | fault r => simp [runWith, hs] at h
    | refused r => simp [runWith, hs] at h

/-- The commands `cs`, presented in IDLE with `A` in STATE, execute in one step each: they leave `S` in STATE and the other
registers as they were, and the last of them answers `d`. -/
def Executes (cs : List Command) (A S : KState) (d : Data) : Prop :=
  ∀ (s : State) (moves : List HostMove), s.fsm = .idle → s.state = A → s.inbox = asMoves cs ++ moves →
    ∃ u w, runWith step cs.length s = .next u ∧ u.resp = some { word := w, dout := d } ∧
      registers u = registers (s.setState S) ∧ u.inbox = moves

/-- A command executes by step where it executes by `exec` on the operand presented with it. -/
theorem Executes.single {i : Instr} {operand d : Data} {A S : KState} (hwf : i.wf = true)
    (hexec : ∀ s : State, s.fsm = .idle → s.din = operand → s.state = A → exec i s = .next ((s.setState S).ok d)) :
    Executes [commandOf i operand] A S d := by
  intro s moves hf hA hi
  have hpresented : s.inbox = .command (commandOf i operand) :: moves := hi
  have hstep := calc
    step s = runCommand (s.accept (commandOf i operand) moves) := step_command (.inl hf) hpresented
    _ = exec i (s.accept (commandOf i operand) moves) := runCommand_ok (decodeOfEncode i hwf)
    _ = .next (((s.accept (commandOf i operand) moves).setState S).ok d) := hexec _ hf rfl hA
  exact ⟨_, _, runWith_succ hstep 0, rfl, rfl, rfl⟩

theorem Executes.append {cs cs' : List Command} {A B S : KState} {d d' : Data} (h : Executes cs A B d)
    (h' : Executes cs' B S d') : Executes (cs ++ cs') A S d' := by
  intro s moves hf hA hi
  obtain ⟨t, -, hrun, -, hregs, hmoves⟩ := h s (asMoves cs' ++ moves) hf hA (by simpa [asMoves] using hi)
  simp only [registers, Prod.mk.injEq] at hregs
  obtain ⟨hstate, hfsm, hrest⟩ := hregs
  obtain ⟨u, w, hrun', hresp, hregs', hmoves'⟩ := h' t moves (hfsm.trans hf) hstate hmoves
  refine ⟨u, w, ?_, hresp, ?_, hmoves'⟩
  · rw [List.length_append, runWith_add hrun, hrun']
  · rw [hregs']
    simp [registers, hfsm, hrest]

/-! ### The permutation, round by round -/

theorem executes_kfRound (A t : KState) (ir : Fin 24) :
    Executes [commandOf (.kfRound ir.val) (.state t)] A A (.state (roundFunction t ir)) := by
  refine .single (decide_eq_true (by omega)) fun s hf hd hA => ?_
  subst hA
  simp only [exec, execKfRound, State.inIdle_idle hf, dif_pos ir.isLt, State.takeState_of hd]
  rfl

/-- A chain of rounds answers the composition of its rounds (R57, R92). -/
theorem executes_roundChain (A t : KState) (ir : Fin 24) (irs : List (Fin 24)) :
    Executes (roundChain t (ir :: irs)) A A (.state ((ir :: irs).foldl roundFunction t)) := by
  induction irs generalizing ir t with
  | nil => exact executes_kfRound A t ir
  | cons ir' irs ih => exact (executes_kfRound A t ir).append (ih (roundFunction t ir) ir')

theorem expandKfRounds_all (t : KState) : expandKfRounds 0 23 t = roundChain t (List.finRange 24) := by
  have hall : ∀ ir : Fin 24, (decide (0 ≤ ir) && decide (ir ≤ 23)) = true := by decide
  rw [expandKfRounds, List.filter_eq_self.mpr fun ir _ => hall ir]

theorem length_roundChain (t : KState) (irs : List (Fin 24)) : (roundChain t irs).length = irs.length := by
  induction irs generalizing t with
  | nil => rfl
  | cons ir irs ih => rw [roundChain, List.length_cons, ih, List.length_cons]

theorem executes_expandKfRounds (A t : KState) : Executes (expandKfRounds 0 23 t) A A (.state (keccakF t)) := by
  rw [expandKfRounds_all, keccakF, List.finRange_succ]
  exact executes_roundChain A t 0 _

/-! ### The sponge, block by block -/

theorem executes_cvB2bits (A : KState) (m : List Byte) :
    Executes [commandOf .cvB2bits (.bytes m)] A A (.bits (bytesToBits m)) := by
  refine .single rfl fun s hf hd hA => ?_
  subst hA
  simp only [exec, execCvB2bits, State.inIdle_idle hf, State.takeBytes_of hd]
  rfl

theorem executes_pdPad (A : KState) {b : Bits} (hb : b.length % 8 = 0) :
    Executes [commandOf .pdPad (.bits b)] A A (.bits (pad b)) := by
  refine .single rfl fun s hf hd hA => ?_
  subst hA
  simp only [exec, execPdPad, State.inIdle_idle hf, State.takeBits_of hd, beq_iff_eq.mpr hb, State.require_true]
  rfl

theorem executes_spInit (A : KState) : Executes [commandOf .spInit .none] A 0 .none := by
  refine .single rfl fun s hf hd _ => ?_
  simp only [exec, execSpInit, State.inIdle_idle hf, State.takeNone_of hd]

theorem executes_spAbsorb (A : KState) {blk : Bits} (hblk : blk.length = 1088) :
    Executes [commandOf .spAbsorb (.bits blk)] A (absorbBlock A blk) .none := by
  refine .single rfl fun s hf hd hA => ?_
  subst hA
  simp only [exec, execSpAbsorb, State.inIdle_idle hf, State.takeBits_of hd, beq_iff_eq.mpr hblk, State.require_true]

theorem executes_spSqueeze (A : KState) : Executes [commandOf .spSqueeze .none] A A (.bytes (squeezeDigest A)) := by
  refine .single rfl fun s hf hd hA => ?_
  subst hA
  simp only [exec, execSpSqueeze, State.inIdle_idle hf, State.takeNone_of hd]
  rfl

/-- Blocks absorbed in order after commands that left `S` in STATE (R122, R127). -/
theorem Executes.absorb_blocks {cs : List Command} {A S : KState} (h : Executes cs A S .none) (blocks : List Bits)
    (hlen : ∀ blk ∈ blocks, blk.length = 1088) :
    Executes (cs ++ blocks.map fun blk => commandOf .spAbsorb (.bits blk)) A (blocks.foldl absorbBlock S) .none := by
  induction blocks generalizing cs S with
  | nil => simpa using h
  | cons blk blocks ih =>
    obtain ⟨hblk, hblocks⟩ := List.forall_mem_cons.mp hlen
    simpa using ih (h.append (executes_spAbsorb S hblk)) hblocks

theorem length_blockAt {P : Bits} {j : Nat} (hj : j < P.length / 1088) : (blockAt P j).length = 1088 := by
  rw [blockAt, length_slice]
  omega

/-- R129: the sequence answers the digest and leaves the final state of SP.HASH. -/
theorem executes_spongeSequence (A : KState) (m : List Byte) :
    Executes (spongeSequence m) A (hashState m) (.bytes (keccak256 m)) := by
  have habsorb := (executes_spInit A).absorb_blocks
    ((List.range ((pad (bytesToBits m)).length / 1088)).map (blockAt (pad (bytesToBits m))))
    (List.forall_mem_map.mpr fun j hj => length_blockAt (List.mem_range.mp hj))
  rw [List.map_map, List.foldl_map] at habsorb
  exact habsorb.append (executes_spSqueeze (hashState m))

theorem executes_expandKeccak256 (A : KState) (m : List Byte) :
    Executes (expandKeccak256 m) A (hashState m) (.bytes (keccak256 m)) :=
  (executes_cvB2bits A m).append ((executes_pdPad A (by simp)).append (executes_spongeSequence A m))

/-- Settles O29: both expansions execute command by command. -/
theorem pseudoInstructionsDoWhatR57Says : Obligations.PseudoInstructionsDoWhatR57Says := by
  refine ⟨fun s t rest hf hi => ?_, fun s m rest hf hi => ?_⟩
  · have hlen : (expandKfRounds 0 23 t).length = 24 := by
      rw [expandKfRounds_all, length_roundChain, List.length_finRange]
    have hrun := executes_expandKfRounds s.state t s rest hf rfl hi
    rwa [hlen] at hrun
  · obtain ⟨u, w, hrun, hresp, hregs, hrest⟩ := executes_expandKeccak256 s.state m s rest hf rfl hi
    simp only [registers, Prod.mk.injEq] at hregs
    obtain ⟨hstate, hfsm, -⟩ := hregs
    exact ⟨u, w, hrun, hresp, hstate, hfsm.trans hf, hrest⟩

end Sys2Proof.Machine
end

section
/-! The converter (rules R70 to R75): the bits of a byte sequence and the bytes of a bit sequence, the inverse laws, and its four
commands. -/

namespace Sys2Proof.Machine

/-! ### The functions of R70 -/

/-- Byte `j` is the bits `8j ..< 8j + 8` (R34). -/
theorem slice_bytesToBits_byte (m : List Byte) {j : Nat} (hj : j < m.length) :
    slice (bytesToBits m) (8 * j) 8 = toBits m[j] := by
  have hbyte : (m.drop j).take 1 = [m[j]] := List.take_one_drop_eq_of_lt_length hj
  calc slice (bytesToBits m) (8 * j) 8
    _ = bytesToBits ((m.drop j).take 1) := slice_bytesToBits m (n := 1) hj
    _ = toBits m[j] := by rw [hbyte, bytesToBits_cons]; exact List.append_nil _

theorem getD_bytesToBits (m : List Byte) {j k : Nat} (hj : j < m.length) (hk : k < 8) :
    (bytesToBits m).getD (8 * j + k) false = (m.getD j 0).getLsbD k := by
  rw [← getD_slice _ _ _ _ hk, slice_bytesToBits_byte m hj, getD_toBits, List.getD_eq_getElem _ _ hj]

theorem getLsbD_getD_bitsToBytes (s : Bits) {j k : Nat} (hj : j < (bitsToBytes s).length) (hk : k < 8) :
    ((bitsToBytes s).getD j 0).getLsbD k = s.getD (8 * j + k) false := by
  rw [List.getD_eq_getElem _ _ hj, getElem_bitsToBytes, getLsbD_ofBits, getD_slice _ _ _ _ hk, decide_eq_true hk,
    Bool.true_and]

theorem bitsToBytes_bytesToBits (m : List Byte) : bitsToBytes (bytesToBits m) = m := by
  refine List.ext_getElem (by simp) fun j _ hj => ?_
  rw [getElem_bitsToBytes, slice_bytesToBits_byte m hj, ofBits_toBits]

theorem bytesToBits_bitsToBytes {s : Bits} (h : s.length % 8 = 0) : bytesToBits (bitsToBytes s) = s := by
  have hlen : (bytesToBits (bitsToBytes s)).length = s.length := by
    rw [length_bytesToBits, length_bitsToBytes]
    omega
  refine List.ext_getElem hlen fun i hi₁ hi₂ => ?_
  have hj : i / 8 < (bitsToBytes s).length := by
    rw [length_bitsToBytes]
    omega
  have hk : i % 8 < 8 := Nat.mod_lt _ (by decide)
  have hbit := (getD_bytesToBits _ hj hk).trans (getLsbD_getD_bitsToBytes s hj hk)
  rwa [Nat.div_add_mod, List.getD_eq_getElem _ _ hi₁, List.getD_eq_getElem _ _ hi₂] at hbit

/-- Settles O18: the two pairs of functions agree bit by bit, and eight bytes stand for their little-endian number. -/
theorem converterInverseLaws : Obligations.ConverterInverseLaws := by
  refine ⟨bitsToBytes_bytesToBits, fun s => bytesToBits_bitsToBytes, ofBits_toBits, toBits_ofBits, fun m hm => ?_⟩
  rw [laneFromBits, toNat_ofBits_bytesToBits (List.length_take_of_le hm)]
  refine congrArg List.sum (List.map_congr_left fun j hj => ?_)
  have hj8 : j < 8 := List.mem_range.mp hj
  simp [List.getD_eq_getElem?_getD, hj8]

/-! ### The commands -/

/-- The fourth check of R153, of every command with an operand kind: an operand of another kind raises OPERAND_KIND in IDLE. -/
theorem exec_operandKind {i : Instr} {s : State} (hf : s.fsm = .idle) (hreset : i ≠ .sysReset)
    (hround : ∀ ir, i = .kfRound ir → ir < 24) (hk : s.din.kind ≠ i.operandKind) :
    exec i s = raises s .operandKind := by
  have inIdle {x : Result} (h : x = .next (s.raise .operandKind)) : s.inIdle x = raises s .operandKind :=
    (State.inIdle_idle hf x).trans h
  cases i with
  | sysReset => exact absurd rfl hreset
  | sysStatus =>
    simp only [exec, execSysStatus, hf]
    exact State.takeNone_kind hk _
  | sysNop | spInit | spSqueeze => exact inIdle (State.takeNone_kind hk _)
  | cvB2bits | spHash => exact inIdle (State.takeBytes_kind hk _)
  | cvBits2b | cvBits2lane | pdPad | spAbsorb => exact inIdle (State.takeBits_kind hk _)
  | cvLane2bits => exact inIdle (State.takeLane_kind hk _)
  | kfPermute => exact inIdle (State.takeState_kind hk _)
  | kfRound ir =>
    apply inIdle
    rw [dif_pos (hround ir rfl)]
    exact State.takeState_kind hk _

section
variable {s : State} (hf : s.fsm = .idle)
include hf

theorem exec_cvB2bits {m : List Byte} (hd : s.din = .bytes m) :
    exec .cvB2bits s = completes s (.bits (bytesToBits m)) := by
  simp only [exec, execCvB2bits, State.inIdle_idle hf, State.takeBytes_of hd]
  rfl

theorem exec_cvBits2b {b : Bits} (hd : s.din = .bits b) :
    exec .cvBits2b s = if b.length % 8 = 0 then completes s (.bytes (bitsToBytes b)) else raises s .bitCount := by
  simp only [exec, execCvBits2b, State.inIdle_idle hf, State.takeBits_of hd, State.require, beq_iff_eq]
  rfl

theorem exec_cvLane2bits {v : Lane} (hd : s.din = .lane v) :
    exec .cvLane2bits s = completes s (.bits (bitsFromLane v)) := by
  simp only [exec, execCvLane2bits, State.inIdle_idle hf, State.takeLane_of hd]
  rfl

theorem exec_cvBits2lane {b : Bits} (hd : s.din = .bits b) :
    exec .cvBits2lane s = if b.length = 64 then completes s (.lane (laneFromBits b)) else raises s .laneLength := by
  simp only [exec, execCvBits2lane, State.inIdle_idle hf, State.takeBits_of hd, State.require, beq_iff_eq]
  rfl

end

/-- Settles O14: the answer is `bytesToBits` of the operand. -/
theorem cvB2bitsExpandsBytes : Obligations.CvB2bitsExpandsBytes := by
  refine ⟨rfl, fun s m hf hd => ?_, fun s hf hk => exec_operandKind hf nofun nofun hk⟩
  exact ⟨bytesToBits m, exec_cvB2bits hf hd, length_bytesToBits m, fun j k hj hk => getD_bytesToBits m hj hk⟩

/-- Settles O15: the answer is `bitsToBytes` of an operand of whole bytes. -/
theorem cvBits2bPacksBits : Obligations.CvBits2bPacksBits := by
  refine ⟨rfl, fun s b hf hd hb => ?_, fun s b hf hd hb => ?_, fun s hf hk => exec_operandKind hf nofun nofun hk⟩
  · exact ⟨bitsToBytes b, (exec_cvBits2b hf hd).trans (if_pos hb), length_bitsToBytes b,
      fun j k hj hk => getLsbD_getD_bitsToBytes b hj hk⟩
  · exact (exec_cvBits2b hf hd).trans (if_neg hb)

/-- Settles O16: the answer is `bitsFromLane` of the operand. -/
theorem cvLane2bitsListsTheBits : Obligations.CvLane2bitsListsTheBits := by
  refine ⟨rfl, fun s v hf hd => ?_, fun s hf hk => exec_operandKind hf nofun nofun hk⟩
  exact ⟨bitsFromLane v, exec_cvLane2bits hf hd, length_toBits v, fun z _ => getD_toBits v z⟩

/-- Settles O17: the answer is `laneFromBits` of an operand of 64 bits. -/
theorem cvBits2laneMakesALane : Obligations.CvBits2laneMakesALane := by
  refine ⟨rfl, fun s b hf hd hb => ?_, fun s b hf hd hb => ?_, fun s hf hk => exec_operandKind hf nofun nofun hk⟩
  · refine ⟨laneFromBits b, (exec_cvBits2lane hf hd).trans (if_pos hb), fun z hz => ?_⟩
    rw [laneFromBits, getLsbD_ofBits, decide_eq_true hz, Bool.true_and]
  · exact (exec_cvBits2lane hf hd).trans (if_neg hb)

end Sys2Proof.Machine
end

section
/-! The two ROMs (rules R80 to R83), compared with their generators entry by entry. -/

namespace Sys2Proof.Machine

/-- The walk reaches every position but (0,0) with the offset the ROM holds there (R81). -/
theorem mem_rotWalk (x y : Fin 5) (h : (x, y) ≠ (0, 0)) : (x, y, rotOffset x y) ∈ rotWalk := by
  revert x y
  decide

theorem rotOffset_lt (x y : Fin 5) : rotOffset x y < 64 := by
  revert x y
  decide

/-- No two lanes have the same offset (R81). -/
theorem rotOffset_inj (x y x' y' : Fin 5) (h : rotOffset x y = rotOffset x' y') : x = x' ∧ y = y' := by
  revert x y x' y'
  decide

/-- Settles O20, by evaluation of the walk: 24 entries, among them each of the 24 positions. -/
theorem rotationOffsetsFollowTheWalk : Obligations.RotationOffsetsFollowTheWalk :=
  ⟨rfl, mem_rotWalk, rfl, rotOffset_lt, rotOffset_inj⟩

/-- The shift register of R83 gives the ROM of R82. -/
theorem toNat_roundConstant (ir : Fin 24) : (roundConstant ir).toNat = lfsrConstant ir.val := by
  revert ir
  decide +kernel

/-- A round constant has 1 bits only at the positions `2^j - 1` (R83). -/
theorem getLsbD_roundConstant (ir : Fin 24) (z : Fin 64) (hz : z.val ∉ [0, 1, 3, 7, 15, 31, 63]) :
    (roundConstant ir).getLsbD z.val = false := by
  revert ir z
  decide +kernel

/-- Settles O21, by evaluation of the shift register. -/
theorem roundConstantsFollowTheShiftRegister : Obligations.RoundConstantsFollowTheShiftRegister :=
  ⟨toNat_roundConstant, getLsbD_roundConstant, rfl, rfl, rfl, rfl⟩

end Sys2Proof.Machine
end

section
/-! The step mappings (rules R84 to R88): each in its lane form, from which its bit form and the rest of its rule follow. -/

namespace Sys2Proof.Machine

/-! ### Lanes and their bits -/

@[simp] theorem lane_xor (A B : KState) (x y : Fin 5) : lane (A ^^^ B) x y = lane A x y ^^^ lane B x y :=
  BitVec.extractLsb'_xor

theorem lane_allOnes (x y : Fin 5) : lane (BitVec.allOnes 1600) x y = BitVec.allOnes 64 := by
  apply BitVec.eq_of_getLsbD_eq
  intro z hz
  have hi : 64 * (x.val + 5 * y.val) + z < 1600 := by omega
  simp only [lane, BitVec.getLsbD_extractLsb', BitVec.getLsbD_allOnes, hz, hi, decide_true, Bool.and_self]

/-- `ROTL64(v, r)[z] = v[(z - r) mod 64]` (R9). -/
theorem getLsbD_rotateLeft (v : Lane) {r z : Nat} (hr : r < 64) (hz : z < 64) :
    (v.rotateLeft r).getLsbD z = v.getLsbD ((z + 64 - r) % 64) := by
  rw [BitVec.getLsbD_rotateLeft_of_le hr]
  by_cases hzr : z < r
  · have hpos : (z + 64 - r) % 64 = 64 - r + z := by omega
    simp [hzr, hpos]
  · have hpos : (z + 64 - r) % 64 = z - r := by omega
    simp [hzr, hz, hpos]

theorem rotateLeft_xor (u v : Lane) {r : Nat} (hr : r < 64) :
    (u ^^^ v).rotateLeft r = u.rotateLeft r ^^^ v.rotateLeft r := by
  apply BitVec.eq_of_getLsbD_eq
  intro z hz
  simp only [BitVec.getLsbD_xor, getLsbD_rotateLeft _ hr hz]

@[simp] theorem zero_rotateLeft {r : Nat} (hr : r < 64) : (0#64).rotateLeft r = 0#64 := by
  apply BitVec.eq_of_getLsbD_eq
  intro z hz
  simp only [getLsbD_rotateLeft _ hr hz, BitVec.getLsbD_zero]

/-! ### θ -/

@[simp] theorem lane_theta (A : KState) (x y : Fin 5) :
    lane (theta A) x y =
      lane A x y ^^^ (columnParity A (x + 4) ^^^ (columnParity A (x + 1)).rotateLeft 1) :=
  lane_ofLanes _ x y

/-- The parity of a column, at one position `z` (R84). -/
theorem getLsbD_columnParity (A : KState) (x : Fin 5) (z : Nat) :
    (columnParity A x).getLsbD z = (List.finRange 5).foldl (fun p y => p ^^ stateBit A x y z) false := by
  simp [columnParity, stateBit, List.finRange_succ]

theorem columnParity_xor (A B : KState) (x : Fin 5) :
    columnParity (A ^^^ B) x = columnParity A x ^^^ columnParity B x := by
  simp only [columnParity, lane_xor]
  ac_rfl

/-- θ bit by bit: the parities of column `x - 1` at `z` and of column `x + 1` at `z - 1` (R84). -/
theorem stateBit_theta (A : KState) (x y : Fin 5) {z : Nat} (hz : z < 64) :
    stateBit (theta A) x y z =
      (stateBit A x y z ^^ (columnParity A (x - 1)).getLsbD z ^^
        (columnParity A (x + 1)).getLsbD ((z + 63) % 64)) := by
  have hleft : x - 1 = x + 4 := by
    revert x
    decide
  have hz1 : z + 64 - 1 = z + 63 := by omega
  rw [stateBit, lane_theta, BitVec.getLsbD_xor, BitVec.getLsbD_xor, getLsbD_rotateLeft _ (by decide) hz, hleft, hz1,
    stateBit, Bool.xor_assoc]

/-- θ is linear over GF(2) (R84). -/
theorem theta_xor (A B : KState) : theta (A ^^^ B) = theta A ^^^ theta B := by
  refine state_ext fun x y => ?_
  simp only [lane_theta, lane_xor, columnParity_xor, rotateLeft_xor _ _ (show 1 < 64 by decide)]
  ac_rfl

/-- A linear map fixes 0 (R84). -/
theorem theta_zero : theta 0 = 0 := by
  have h := theta_xor 0 0
  rwa [BitVec.xor_self, BitVec.xor_self] at h

/-- Settles O22: the lane form, read bit by bit, adds the two column parities, and each part of it is linear. -/
theorem thetaAddsTwoColumnParities : Obligations.ThetaAddsTwoColumnParities := by
  refine ⟨lane_theta, fun A x y z hz => ?_, theta_xor, theta_zero⟩
  rw [stateBit_theta A x y hz, getLsbD_columnParity, getLsbD_columnParity]

/-! ### ρ -/

@[simp] theorem lane_rho (A : KState) (x y : Fin 5) : lane (rho A) x y = (lane A x y).rotateLeft (rotOffset x y) :=
  lane_ofLanes _ x y

theorem rho_zero : rho 0 = 0 := state_ext fun x y => by simp [rotOffset_lt x y]

/-- Lane (0,0) has offset 0 and stays (R85). -/
theorem lane_rho_zero_zero (A : KState) : lane (rho A) 0 0 = lane A 0 0 := by
  apply BitVec.eq_of_getLsbD_eq
  intro z hz
  have hpos : (z + 64 - rotOffset 0 0) % 64 = z := by
    rw [show rotOffset 0 0 = 0 from rfl]
    omega
  rw [lane_rho, getLsbD_rotateLeft _ (rotOffset_lt 0 0) hz, hpos]

/-- Settles O23: every offset is below 64, so that a rotation reads each bit from `z - r` mod 64. -/
theorem rhoRotatesEachLane : Obligations.RhoRotatesEachLane := by
  refine ⟨lane_rho, fun A x y z hz => ?_, lane_rho_zero_zero, rho_zero⟩
  rw [stateBit, lane_rho, getLsbD_rotateLeft _ (rotOffset_lt x y) hz, stateBit]

/-! ### π -/

@[simp] theorem lane_pi (A : KState) (X Y : Fin 5) : lane (pi A) X Y = lane A (X + 3 * Y) X := lane_ofLanes _ X Y

/-- Where a lane goes is read from there (R86): `y + 3(2x + 3y) = x` mod 5. -/
theorem pi_source_of_destination (x y : Fin 5) : y + 3 * (2 * x + 3 * y) = x := by
  revert x y
  decide

/-- A lane goes back to where it is read from (R86): `2(X + 3Y) + 3X = Y` mod 5. -/
theorem pi_destination_of_source (X Y : Fin 5) : 2 * (X + 3 * Y) + 3 * X = Y := by
  revert X Y
  decide

/-- R86: the source of each lane, by lane index. -/
theorem pi_source_index (X Y : Fin 5) :
    (X + 3 * Y).val + 5 * X.val = [0, 6, 12, 18, 24, 3, 9, 10, 16, 22, 1, 7, 13, 19, 20, 4, 5, 11, 17, 23,
      2, 8, 14, 15, 21].getD (X.val + 5 * Y.val) 25 := by
  revert X Y
  decide

theorem pi_zero : pi 0 = 0 := state_ext fun x y => by simp

/-- Settles O24: the two readings of π are inverse maps of the positions. -/
theorem piMovesEachLane : Obligations.PiMovesEachLane := by
  refine ⟨fun A x y => ?_, lane_pi, fun A X Y => ?_, ?_, fun A => lane_pi A 0 0⟩
  · rw [lane_pi, pi_source_of_destination]
  · rw [lane_pi, lane, pi_source_index]
  · refine Function.bijective_iff_has_inverse.mpr ⟨fun q => (q.1 + 3 * q.2, q.1), fun p => ?_, fun q => ?_⟩
    · exact Prod.ext (pi_source_of_destination p.1 p.2) rfl
    · exact Prod.ext rfl (pi_destination_of_source q.1 q.2)

/-! ### χ -/

@[simp] theorem lane_chi (A : KState) (x y : Fin 5) :
    lane (chi A) x y = lane A x y ^^^ (~~~lane A (x + 1) y &&& lane A (x + 2) y) := lane_ofLanes _ x y

theorem stateBit_chi (A : KState) (x y : Fin 5) {z : Nat} (hz : z < 64) :
    stateBit (chi A) x y z = (stateBit A x y z ^^ (!stateBit A (x + 1) y z && stateBit A (x + 2) y z)) := by
  simp [stateBit, hz]

theorem chi_zero : chi 0 = 0 := state_ext fun x y => by simp

theorem chi_allOnes : chi (BitVec.allOnes 1600) = BitVec.allOnes 1600 := by
  refine state_ext fun x y => ?_
  rw [lane_chi, lane_allOnes, lane_allOnes, lane_allOnes, BitVec.not_allOnes, BitVec.zero_and, BitVec.xor_zero]

/-- Settles O25: the bit form says that a bit is inverted exactly where the `and` of the rule is 1. -/
theorem chiIsTheNonlinearStep : Obligations.ChiIsTheNonlinearStep := by
  refine ⟨lane_chi, fun A x y z hz => stateBit_chi A x y hz, fun A x y z hz => ?_, chi_zero, chi_allOnes⟩
  rw [stateBit_chi A x y hz]
  cases stateBit A x y z <;> simp

/-! ### ι -/

@[simp] theorem lane_iota (A : KState) (ir : Fin 24) (x y : Fin 5) :
    lane (iota A ir) x y = if x = 0 ∧ y = 0 then lane A x y ^^^ roundConstant ir else lane A x y := lane_ofLanes _ x y

/-- Settles O26, from the lane form. -/
theorem iotaChangesLaneZeroAlone : Obligations.IotaChangesLaneZeroAlone := by
  refine fun A ir => ⟨by rw [lane_iota, if_pos ⟨rfl, rfl⟩], fun x y hxy => ?_⟩
  rw [lane_iota, if_neg fun ⟨hx, hy⟩ => hxy (Prod.ext hx hy)]

end Sys2Proof.Machine
end

section
/-! The round function and the permutation (rules R89, R90), and their commands (R92, R93). -/

namespace Sys2Proof.Machine

/-- The index of a round selects its constant alone (R92). -/
theorem roundFunction_congr (t : KState) {i j : Fin 24} (h : roundConstant i = roundConstant j) :
    roundFunction t i = roundFunction t j := by
  unfold roundFunction iota
  rw [h]

/-- ι is the only step of a round that does not fix 0 (R92). -/
theorem roundFunction_zero (ir : Fin 24) : roundFunction 0 ir = iota 0 ir := by
  rw [roundFunction, theta_zero, rho_zero, pi_zero, chi_zero]

/-- Two rounds of one state differ by their constants, in lane (0,0) (R92). -/
theorem lane_roundFunction_xor (t : KState) (i j : Fin 24) (x y : Fin 5) :
    lane (roundFunction t i) x y ^^^ lane (roundFunction t j) x y =
      if (x, y) = (0, 0) then roundConstant i ^^^ roundConstant j else 0 := by
  simp only [roundFunction, lane_iota, Prod.mk.injEq]
  generalize lane (chi (pi (rho (theta t)))) x y = v
  split
  · calc (v ^^^ roundConstant i) ^^^ (v ^^^ roundConstant j)
      _ = (v ^^^ v) ^^^ (roundConstant i ^^^ roundConstant j) := by ac_rfl
      _ = roundConstant i ^^^ roundConstant j := by rw [BitVec.xor_self, BitVec.zero_xor]
  · exact BitVec.xor_self

/-- The word of KF.ROUND is `0x0020 | (ir << 8)` (R92). -/
theorem encode_kfRound (ir : Fin 24) : encode (.kfRound ir.val) = 0x0020 ||| (BitVec.ofNat 16 ir.val <<< 8) := by
  revert ir
  decide

theorem exec_kfRound {s : State} (hf : s.fsm = .idle) (ir : Fin 24) {t : KState} (hd : s.din = .state t) :
    exec (.kfRound ir.val) s = completes s (.state (roundFunction t ir)) := by
  simp only [exec, execKfRound, State.inIdle_idle hf, dif_pos ir.isLt, State.takeState_of hd]
  rfl

theorem exec_kfPermute {s : State} (hf : s.fsm = .idle) {t : KState} (hd : s.din = .state t) :
    exec .kfPermute s = completes s (.state (keccakF t)) := by
  simp only [exec, execKfPermute, State.inIdle_idle hf, State.takeState_of hd]
  rfl

/-- Settles O27: of the steps of a round only ι looks at the round index. -/
theorem kfRoundAppliesOneRound : Obligations.KfRoundAppliesOneRound := by
  refine ⟨fun ir hir => ?_, fun s ir t hf hd => exec_kfRound hf ir hd, fun s ir hf hir => exec_kfRound_roundIndex hf hir,
    fun s ir hf hir hk => ?_, fun ir x y => ?_, lane_roundFunction_xor, fun t => roundFunction_congr t rfl⟩
  · rw [← encode_kfRound ⟨ir, hir⟩]
    exact decodeOfEncode _ (decide_eq_true (by omega))
  · refine exec_operandKind hf nofun (fun ir' heq => ?_) hk
    cases heq
    exact hir
  · rw [roundFunction_zero]
    simp

/-- The state after the rounds below `n`, from `t` (R90). -/
def afterRounds (t : KState) (n : Nat) : KState := ((List.finRange 24).take n).foldl roundFunction t

theorem afterRounds_succ (t : KState) (ir : Fin 24) :
    afterRounds t (ir.val + 1) = roundFunction (afterRounds t ir.val) ir := by
  rw [afterRounds, List.take_succ_eq_append_getElem (by simp), List.foldl_append, List.getElem_finRange]
  rfl

theorem afterRounds_all (t : KState) : afterRounds t 24 = keccakF t := by
  rw [afterRounds, List.take_of_length_le (by simp), keccakF]

/-- The lane of KeccakF(0) that R93 prints. -/
theorem lane_keccakF_zero : lane (keccakF 0) 0 0 = 0xF1258F7940E1DDE7 := by
  decide +kernel

/-- Settles O28: the sequence of R93 is `afterRounds`. -/
theorem kfPermuteAppliesTwentyFourRounds : Obligations.KfPermuteAppliesTwentyFourRounds := by
  refine ⟨rfl, fun s t hf hd => ⟨afterRounds t, rfl, afterRounds_succ t, ?_⟩,
    fun s hf hk => exec_operandKind hf nofun nofun hk, lane_keccakF_zero⟩
  rw [afterRounds_all]
  exact exec_kfPermute hf hd

end Sys2Proof.Machine
end

section
/-! No step stops the engine (rules R91, R125, R176): in a state that meets the invariant a row of R125 applies while a sequence
runs, and between commands every command is answered. -/

namespace Sys2Proof.Machine

/-- With FSM = PERM a row of R125 applies while RND and BLK are in range. -/
theorem permStep_next {s : State} (hrnd : s.rnd.toNat ≤ 23) (hblk : s.blk < s.nblk) : ∃ t, permStep s = .next t := by
  simp only [permStep, dif_pos (Nat.lt_succ_of_le hrnd)]
  by_cases hround : s.rnd.toNat < 23
  · exact ⟨_, if_pos hround⟩
  rw [if_neg hround]
  rcases Nat.lt_or_eq_of_le (Nat.succ_le_of_lt hblk) with hnext | hlast
  · exact ⟨_, if_pos hnext⟩
  · rw [if_neg (by omega)]
    exact ⟨_, if_pos hlast⟩

/-- A row of R125 applies in every state of a running sequence. -/
theorem microStep_next {s : State} (hs : EngineInv s) (hb : s.fsm.busy = true) : ∃ t, microStep s = .next t := by
  unfold microStep
  cases hf : s.fsm with
  | idle => simp [hf, Fsm.busy] at hb
  | fault => simp [hf, Fsm.busy] at hb
  | pad =>
    simp only [EngineInv, hf] at hs
    obtain ⟨-, -, hkind⟩ := hs
    cases hd : s.din with
    | bytes m => exact ⟨_, rfl⟩
    | _ => simp [hd, Data.kind] at hkind
  | xor =>
    simp only [EngineInv, hf] at hs
    obtain ⟨⟨hblk, hpbuf, -⟩, -⟩ := hs
    exact ⟨_, if_pos (length_blockAt (by omega))⟩
  | perm =>
    simp only [EngineInv, hf] at hs
    obtain ⟨⟨hblk, -⟩, -, hrnd⟩ := hs
    exact permStep_next hrnd hblk
  | squeeze => exact ⟨_, rfl⟩

theorem Answered.next {P : Data → Prop} {s : State} {x : Result} (h : Answered P s x) : ∃ t, x = .next t := by
  cases h <;> exact ⟨_, rfl⟩

/-- At a command boundary every command has a next state (R55). -/
theorem runCommand_next {s : State} (hb : s.fsm.busy = false) : ∃ t, runCommand s = .next t :=
  (runCommand_answered (fsm_eq_of_not_busy hb)).next

/-- An accepted command takes an acceptance row of R125 or runs whole. -/
theorem beginCommand_next {s : State} (hb : s.fsm.busy = false) : ∃ t, beginCommand s = .next t := by
  have hrun := runCommand_next hb
  unfold beginCommand
  split
  · split
    · exact ⟨_, rfl⟩
    · exact hrun
  · split
    · exact hrun
    · exact ⟨_, rfl⟩
  · exact hrun

theorem step_next {s : State} (hs : EngineInv s) : ∃ t, step s = .next t := by
  rcases step_cases s with ⟨rest, -, hstep⟩ | ⟨-, hb, hstep⟩ | ⟨c, rest, -, hb, hstep⟩ | ⟨-, -, hstep⟩ <;> rw [hstep]
  · exact ⟨_, rfl⟩
  · exact microStep_next hs hb
  · exact runCommand_next (s := s.accept c rest) hb
  · exact ⟨_, rfl⟩

/-- The micro-step view differs from the atomic one in what it does with an accepted command alone. -/
theorem microViewStep_eq_step_or_begin (s : State) :
    microViewStep s = step s ∨
    ∃ c rest, s.fsm.busy = false ∧ microViewStep s = beginCommand (s.accept c rest) := by
  unfold microViewStep step
  cases s.inbox with
  | nil => exact .inl rfl
  | cons move rest =>
    cases move with
    | powerOnReset => exact .inl rfl
    | command c =>
      cases s.fsm.busy with
      | true => exact .inl rfl
      | false => exact .inr ⟨c, rest, rfl, rfl⟩

/-- Settles O53: in either view a step is a reset, a micro-step of a running sequence, an accepted command, or waiting. -/
theorem noStepStopsTheEngine : Obligations.NoStepStopsTheEngine := by
  refine fun s hs => ⟨step_next hs, ?_⟩
  rcases microViewStep_eq_step_or_begin s with hview | ⟨c, rest, hb, hview⟩ <;> rw [hview]
  · exact step_next hs
  · exact beginCommand_next (s := s.accept c rest) hb

end Sys2Proof.Machine
end

section
/-! The padding unit (rules R110 to R116): what `pad` holds at each position, its length and its bytes, and PD.PAD. -/

namespace Sys2Proof.Machine

/-! ### The bits of a padded message -/

theorem getD_orBit {P : Bits} {i : Nat} (hi : i < P.length) (k : Nat) (b d : Bool) :
    (orBit P k b).getD i d = (P.getD i d || (decide (i = k) && b)) := by
  rw [List.getD_eq_getElem _ _ (by rwa [length_orBit]), List.getD_eq_getElem _ _ hi]
  simp only [orBit, List.getElem_modify, eq_comm (a := k)]
  split <;> simp [*]

theorem getD_foldl_orBit {α : Type} {i : Nat} (js : List α) (pos : α → Nat) (bit : α → Bool) {P : Bits}
    (hi : i < P.length) (d : Bool) :
    (js.foldl (fun P j => orBit P (pos j) (bit j)) P).getD i d =
      (P.getD i d || js.any fun j => decide (i = pos j) && bit j) := by
  induction js generalizing P with
  | nil => simp
  | cons j js ih =>
    rw [List.foldl_cons, ih (by rwa [length_orBit]), getD_orBit hi, List.any_cons, Bool.or_assoc]

/-- The domain byte ORed in at `n` sets the bit `n` alone (R110). -/
theorem any_domainByte (n i : Nat) :
    ((List.range 8).any fun j => decide (i = n + j) && domainByte.getLsbD j) = decide (i = n) := by
  have hbits : ∀ j < 8, domainByte.getLsbD j = decide (j = 0) := by decide
  rw [Bool.eq_iff_iff, List.any_eq_true, decide_eq_true_iff]
  constructor
  · rintro ⟨j, hj, h⟩
    rw [hbits j (List.mem_range.mp hj), Bool.and_eq_true, decide_eq_true_iff, decide_eq_true_iff] at h
    omega
  · rintro rfl
    refine ⟨0, by decide, ?_⟩
    rw [hbits 0 (by decide), decide_eq_true rfl, Bool.and_true]
    exact decide_eq_true rfl

/-- The message and the whole domain byte fit (R111). -/
theorem le_length_pad (s : Bits) : s.length + 8 ≤ (pad s).length := by
  rw [length_pad, paddedBlocks]
  omega

/-- The message, with a 1 right after it and a 1 at the last position (R112). -/
theorem getD_pad (s : Bits) {i : Nat} (hi : i < (pad s).length) (d : Bool) :
    (pad s).getD i d = (s.getD i false || decide (i = s.length) || decide (i = (pad s).length - 1)) := by
  have hfits := le_length_pad s
  have hbuffer : (s ++ List.replicate ((pad s).length - s.length) false).length = (pad s).length := by
    rw [List.length_append, List.length_replicate]
    omega
  have hzero : (s ++ List.replicate ((pad s).length - s.length) false).getD i d = s.getD i false := by
    rcases Nat.lt_or_ge i s.length with h | h
    · rw [List.getD_append _ _ _ _ h, List.getD_eq_getElem _ _ h, List.getD_eq_getElem _ _ h]
    · rw [List.getD_append_right _ _ _ _ h, List.getD_eq_default _ _ h, List.getD_replicate _ (by omega)]
  rw [length_pad] at hbuffer hzero hi ⊢
  rw [pad, getD_orBit (by rwa [length_foldl_orBit, hbuffer]), getD_foldl_orBit _ _ _ (by rwa [hbuffer]), any_domainByte,
    hzero, Bool.and_true]

theorem take_pad (s : Bits) : (pad s).take s.length = s := by
  have hfits := le_length_pad s
  refine List.ext_getElem (List.length_take_of_le (by omega)) fun i _ hi => ?_
  have hbit := getD_pad s (i := i) (by omega) false
  rw [List.getD_eq_getElem _ _ (by omega), List.getD_eq_getElem _ _ hi, decide_eq_false (by omega),
    decide_eq_false (by omega), Bool.or_false, Bool.or_false] at hbit
  rwa [List.getElem_take]

/-! ### The length of a padded message -/

/-- The closed form of R111, for a message of whole bytes. -/
theorem length_pad_of_bytes {s : Bits} (h : s.length % 8 = 0) : (pad s).length = 1088 * (s.length / 1088 + 1) := by
  rw [length_pad, paddedBlocks]
  omega

/-- Settles O30: the quotient in `paddedBlocks` rounds up. -/
theorem paddedLengthIsTheLeast : Obligations.PaddedLengthIsTheLeast := by
  refine fun s hs => ⟨length_pad_of_bytes hs, ?_, le_length_pad s, ?_⟩
  · rw [length_pad_of_bytes hs, Nat.div_div_eq_div_mul]
  · rintro _ ⟨k, rfl⟩ hk
    rw [length_pad_of_bytes hs]
    omega

/-- Settles O31: the bits by `getD_pad`, whose two positions of a 1 differ as 8 bits stand after the message. -/
theorem padPlacesTwoOneBits : Obligations.PadPlacesTwoOneBits := by
  refine ⟨fun s _ => ?_, length_pad [], fun s b hb => ?_⟩
  · have hfits := le_length_pad s
    refine ⟨by omega, ⟨_, length_pad s⟩, take_pad s, ?_, fun i hni hi => ?_, ?_, by omega⟩
    · rw [getD_pad s (by omega), decide_eq_true rfl, Bool.or_true, Bool.true_or]
    · rw [getD_pad s (by omega), List.getD_eq_default _ _ hni.le, decide_eq_false hni.ne', decide_eq_false hi.ne]
      rfl
    · rw [getD_pad s (by omega), decide_eq_true rfl, Bool.or_true]
  · rw [length_pad_of_bytes (by omega), hb, Nat.mul_div_cancel_left _ (by decide)]

/-! ### The bytes of a padded message -/

theorem length_paddedBytes (m : List Byte) :
    (bitsToBytes (pad (bytesToBits m))).length = 136 * (m.length / 136 + 1) := by
  rw [length_bitsToBytes, length_pad_bytes]
  omega

/-- `getD_bytesToBits` past the end of the bytes too, where both sides are 0. -/
theorem getD_bytesToBits_or_zero (m : List Byte) (j : Nat) {k : Nat} (hk : k < 8) :
    (bytesToBits m).getD (8 * j + k) false = (m.getD j 0).getLsbD k := by
  rcases Nat.lt_or_ge j m.length with hj | hj
  · exact getD_bytesToBits m hj hk
  · rw [List.getD_eq_default _ _ (by rw [length_bytesToBits]; omega), List.getD_eq_default _ _ hj]
    exact BitVec.getLsbD_zero.symm

/-- A byte of the one bit `b`, placed at `p` among zero bytes, is a 1 at the bit position `8p + b` (R34). -/
theorem getLsbD_byteAt {v : Byte} {b : Nat} (hb : b < 8) (hv : ∀ k < 8, v.getLsbD k = decide (k = b)) (j p : Nat) {k : Nat}
    (hk : k < 8) : (if j = p then v else 0#8).getLsbD k = decide (8 * j + k = 8 * p + b) := by
  split
  · rw [hv k hk]
    exact decide_eq_decide.mpr (by omega)
  · rw [BitVec.getLsbD_zero, decide_eq_false (by omega)]

/-- Byte `j` of the padded message: the message's, with 0x01 ORed in right after the message and 0x80 at the last place
(R113). -/
theorem getElem_paddedBytes (m : List Byte) {j : Nat} (hj : j < (bitsToBytes (pad (bytesToBits m))).length) :
    (bitsToBytes (pad (bytesToBits m)))[j] =
      m.getD j 0 ||| (if j = m.length then 0x01#8 else 0#8) |||
        (if j = (bitsToBytes (pad (bytesToBits m))).length - 1 then 0x80#8 else 0#8) := by
  have hlast : (pad (bytesToBits m)).length - 1 = 8 * ((bitsToBytes (pad (bytesToBits m))).length - 1) + 7 := by
    rw [length_pad_bytes, length_paddedBytes]
    omega
  apply BitVec.eq_of_getLsbD_eq
  intro k hk
  rw [← List.getD_eq_getElem _ 0 hj, getLsbD_getD_bitsToBytes _ hj hk, getD_pad _ (by omega),
    getD_bytesToBits_or_zero m j hk, length_bytesToBits, hlast, BitVec.getLsbD_or, BitVec.getLsbD_or,
    getLsbD_byteAt (b := 0) (by decide) (by decide) _ _ hk, getLsbD_byteAt (b := 7) (by decide) (by decide) _ _ hk]
  rfl

/-- Settles O32: the two marks of `getD_paddedBytes` fall on two bytes, or on one when a single byte is left. -/
theorem paddedMessageAsBytes : Obligations.PaddedMessageAsBytes := by
  intro m
  have hlen := length_paddedBytes m
  have hbyte {j : Nat} (hj : j < _) (d : Byte) := (List.getD_eq_getElem _ d hj).trans (getElem_paddedBytes m hj)
  refine ⟨_, rfl, hlen, ?_, fun hmod => ⟨?_, fun j hmj hj => ?_, ?_⟩, fun hmod => ⟨by omega, ?_⟩⟩
  · refine List.ext_getElem (List.length_take_of_le (by omega)) fun j _ hj => ?_
    rw [List.getElem_take, getElem_paddedBytes, if_neg (by omega), if_neg (by omega), BitVec.or_zero, BitVec.or_zero,
      List.getD_eq_getElem _ _ hj]
  · rw [hbyte (by omega), List.getD_eq_default _ _ le_rfl, if_pos rfl, if_neg (by omega)]
    rfl
  · rw [hbyte (by omega), List.getD_eq_default _ _ hmj.le, if_neg (by omega), if_neg (by omega)]
    rfl
  · rw [hbyte (by omega), List.getD_eq_default _ _ (by omega), if_neg (by omega), if_pos rfl]
    rfl
  · rw [hbyte (by omega), List.getD_eq_default _ _ le_rfl, if_pos rfl, if_pos (by omega)]
    rfl

/-! ### The command -/

theorem exec_pdPad {s : State} {b : Bits} (hf : s.fsm = .idle) (hd : s.din = .bits b) :
    exec .pdPad s = if b.length % 8 = 0 then completes s (.bits (pad b)) else raises s .bitCount := by
  simp only [exec, execPdPad, State.inIdle_idle hf, State.takeBits_of hd, State.require, beq_iff_eq]
  rfl

/-- Settles O33: the answer is `pad` of an operand of whole bytes. -/
theorem pdPadPadsABitSequence : Obligations.PdPadPadsABitSequence := by
  refine ⟨rfl, fun s b hf hd hb => ?_, fun s b hf hd hb => ?_, fun s hf hk => exec_operandKind hf nofun nofun hk⟩
  · exact ⟨(exec_pdPad hf hd).trans (if_pos hb), length_pad_of_bytes hb⟩
  · exact (exec_pdPad hf hd).trans (if_neg hb)

end Sys2Proof.Machine
end

section
/-! The sponge's commands as atomic effects (rules R120 to R124, R127, R129): what each of them does in IDLE, the bits a block and a
digest meet, and the hash block by block. -/

namespace Sys2Proof.Machine

/-! ### The commands -/

section
variable {s : State} (hf : s.fsm = .idle)
include hf

theorem exec_spInit (hd : s.din = .none) : exec .spInit s = completes { s with state := 0 } .none := by
  simp only [exec, execSpInit, State.inIdle_idle hf, State.takeNone_of hd]
  rfl

theorem exec_spAbsorb {blk : Bits} (hd : s.din = .bits blk) :
    exec .spAbsorb s =
      if blk.length = 1088 then completes { s with state := absorbBlock s.state blk } .none
      else raises s .blockLength := by
  simp only [exec, execSpAbsorb, State.inIdle_idle hf, State.takeBits_of hd, State.require, beq_iff_eq]
  rfl

theorem exec_spSqueeze (hd : s.din = .none) :
    exec .spSqueeze s = completes s (.bytes (squeezeDigest s.state)) := by
  simp only [exec, execSpSqueeze, State.inIdle_idle hf, State.takeNone_of hd]
  rfl

theorem exec_spHash {m : List Byte} (hd : s.din = .bytes m) :
    exec .spHash s =
      if s.cfg.exceeds m.length = false then completes { s with state := hashState m } (.bytes (keccak256 m))
      else raises s .msgLength := by
  simp only [exec, execSpHash, State.inIdle_idle hf, State.takeBytes_of hd, State.require, Bool.not_eq_true']
  rfl

end

/-- The build's bound on a message (R124). -/
theorem exceeds_eq_true_iff (cfg : Config) (len : Nat) :
    cfg.exceeds len = true ↔ ∃ bound, cfg.maxMsgBytes = some bound ∧ bound < len := by
  unfold Config.exceeds
  cases cfg.maxMsgBytes <;> simp

/-! ### The rate and the digest -/

theorem getLsbD_xorRate_rate (S : KState) (blk : Bits) {i : Nat} (hi : i < 1088) :
    (xorRate S blk).getLsbD i = (S.getLsbD i ^^ blk.getD i false) := by
  rw [xorRate, BitVec.getLsbD_xor, BitVec.getLsbD_setWidth, getLsbD_ofBits, decide_eq_true hi,
    decide_eq_true (show i < 1600 by omega), Bool.true_and, Bool.true_and]

theorem getLsbD_xorRate_capacity (S : KState) (blk : Bits) {i : Nat} (hi : 1088 ≤ i) :
    (xorRate S blk).getLsbD i = S.getLsbD i := by
  rw [xorRate, BitVec.getLsbD_xor, BitVec.getLsbD_setWidth, BitVec.getLsbD_of_ge _ _ hi, Bool.and_false, Bool.xor_false]

theorem length_squeezeDigest (S : KState) : (squeezeDigest S).length = 32 := by
  simp [squeezeDigest, length_slice]

/-- Byte `8q + r` of the digest is byte `r` of lane `(q, 0)` (R37). -/
theorem getD_squeezeDigest (S : KState) (q : Fin 4) {r : Nat} (hr : r < 8) :
    (squeezeDigest S).getD (8 * q.val + r) 0 = (lane S (Fin.castLE (by omega) q) 0).extractLsb' (8 * r) 8 := by
  have hj : 8 * q.val + r < (squeezeDigest S).length := by
    rw [length_squeezeDigest]
    omega
  apply BitVec.eq_of_getLsbD_eq
  intro k hk
  have hpos : 64 * q.val + (8 * r + k) = 8 * (8 * q.val + r) + k := by omega
  have hz : 8 * r + k < 64 := by omega
  calc ((squeezeDigest S).getD (8 * q.val + r) 0).getLsbD k
    _ = S.getLsbD (8 * (8 * q.val + r) + k) := by
      rw [squeezeDigest, getLsbD_getD_bitsToBytes _ hj hk, getD_slice _ _ _ _ (by omega), getD_toBits, Nat.zero_add]
    _ = stateBit S (Fin.castLE (by omega) q) 0 (8 * r + k) := by
      rw [stateBit_eq _ _ _ _ hz, ← hpos]
      rfl
    _ = ((lane S (Fin.castLE (by omega) q) 0).extractLsb' (8 * r) 8).getLsbD k := by
      rw [BitVec.getLsbD_extractLsb', decide_eq_true hk, Bool.true_and, stateBit]

theorem squeezeDigest_zero : squeezeDigest 0 = List.replicate 32 0 := by
  refine List.ext_getElem (length_squeezeDigest 0) fun j hj _ => ?_
  have hq : j / 8 < 4 := by
    rw [length_squeezeDigest] at hj
    omega
  have hbyte := getD_squeezeDigest 0 ⟨j / 8, hq⟩ (Nat.mod_lt j (by decide))
  rw [Nat.div_add_mod, List.getD_eq_getElem _ _ hj] at hbyte
  rw [hbyte, List.getElem_replicate]
  simp

/-! ### The blocks of a message -/

/-- The blocks below `n` of `P` absorbed in order, from `S` (R127). -/
def absorbFirst (S : KState) (P : Bits) (n : Nat) : KState :=
  (List.range n).foldl (fun S j => absorbBlock S (blockAt P j)) S

theorem absorbFirst_zero (S : KState) (P : Bits) : absorbFirst S P 0 = S := rfl

theorem absorbFirst_succ (S : KState) (P : Bits) (n : Nat) :
    absorbFirst S P (n + 1) = absorbBlock (absorbFirst S P n) (blockAt P n) := by
  rw [absorbFirst, List.range_succ, List.foldl_append]
  rfl

/-- A padded message has one block more than it has whole blocks of 136 bytes (R111). -/
theorem blocks_pad_bytes (m : List Byte) : (pad (bytesToBits m)).length / 1088 = m.length / 136 + 1 := by
  rw [length_pad_bytes, Nat.mul_div_cancel_left _ (by decide)]

theorem hashState_eq_absorbFirst (m : List Byte) :
    hashState m = absorbFirst 0 (pad (bytesToBits m)) (m.length / 136 + 1) := by
  rw [← blocks_pad_bytes]
  rfl

/-! ### The obligations -/

/-- Settles O34: in IDLE SP.INIT is `exec_spInit`. -/
theorem spInitZeroesState : Obligations.SpInitZeroesState :=
  ⟨rfl, fun _ hf hd => exec_spInit hf hd, fun _ hf hk => exec_operandKind hf nofun nofun hk⟩

/-- Settles O35: the state permuted is `xorRate` of STATE and the block. -/
theorem spAbsorbXorsTheRateThenPermutes : Obligations.SpAbsorbXorsTheRateThenPermutes := by
  refine ⟨rfl, fun s blk hf hd hlen => ?_, fun s blk hf hd hlen => ?_, fun s hf hk => exec_operandKind hf nofun nofun hk⟩
  · exact ⟨xorRate s.state blk, fun i hi => getLsbD_xorRate_rate _ _ hi, fun i hi => getLsbD_xorRate_capacity _ _ hi,
      (exec_spAbsorb hf hd).trans (if_pos hlen)⟩
  · exact (exec_spAbsorb hf hd).trans (if_neg hlen)

/-- Settles O36: the answer is `squeezeDigest` of STATE. -/
theorem spSqueezeReadsTheDigest : Obligations.SpSqueezeReadsTheDigest := by
  refine ⟨rfl, fun s hf hd => ?_, fun s hf hk => exec_operandKind hf nofun nofun hk⟩
  refine ⟨squeezeDigest s.state, exec_spSqueeze hf hd, length_squeezeDigest _, fun q r hr => getD_squeezeDigest _ q hr, ?_⟩
  intro hzero
  rw [hzero, squeezeDigest_zero]

/-- Settles O37: the sequence of R124 is `absorbFirst` from `0^1600`. -/
theorem spHashAbsorbsEveryBlock : Obligations.SpHashAbsorbsEveryBlock := by
  refine ⟨rfl, fun s m hf hd hbound => ?_, fun s m bound hf hd hcfg hlt => ?_,
    fun s hf hk => exec_operandKind hf nofun nofun hk⟩
  · have hfits : s.cfg.exceeds m.length = false := by
      rw [← Bool.not_eq_true, exceeds_eq_true_iff]
      rintro ⟨bound, hcfg, hlt⟩
      exact Nat.not_lt.mpr (hbound bound hcfg) hlt
    refine ⟨absorbFirst 0 (pad (bytesToBits m)), rfl, fun j _ => absorbFirst_succ _ _ j, ?_⟩
    rw [exec_spHash hf hd, if_pos hfits, keccak256, hashState_eq_absorbFirst]
  · have hexceeds : s.cfg.exceeds m.length = true := (exceeds_eq_true_iff _ _).mpr ⟨bound, hcfg, hlt⟩
    rw [exec_spHash hf hd, if_neg (by simp [hexceeds])]

theorem length_spongeSequence (m : List Byte) : (spongeSequence m).length = m.length / 136 + 3 := by
  simp [spongeSequence, blocks_pad_bytes]

/-- Settles O38: both leave `hashState` in STATE and answer `keccak256`. -/
theorem spongeSequenceEqualsHash : Obligations.SpongeSequenceEqualsHash := by
  intro s h m rest hs hi hh hd hfits
  obtain ⟨u, w, hrun, hresp, hregs, hrest⟩ := executes_spongeSequence s.state m s rest hs rfl hi
  rw [length_spongeSequence] at hrun
  simp only [registers, Prod.mk.injEq] at hregs
  obtain ⟨hstate, hfsm, -⟩ := hregs
  exact ⟨u, _, _, _, hrun, (exec_spHash hh hd).trans (if_pos hfits), hresp, rfl, rfl, hstate, hfsm.trans hs, hrest⟩

end Sys2Proof.Machine
end

section
/-! The rows of R125 as equations, and the table put together from them. -/

namespace Sys2Proof.Machine

/-! ### Acceptance -/

theorem beginCommand_spHash {s : State} {m : List Byte} (hf : s.fsm = .idle) (hdec : decode s.cmd = .ok .spHash)
    (hd : s.din = .bytes m) (hfits : s.cfg.exceeds m.length = false) : beginCommand s = .next s.beginHash := by
  simp [beginCommand, hf, hdec, hd, hfits]

theorem beginCommand_spAbsorb {s : State} {blk : Bits} (hf : s.fsm = .idle) (hdec : decode s.cmd = .ok .spAbsorb)
    (hd : s.din = .bits blk) (hlen : blk.length = 1088) : beginCommand s = .next (s.beginAbsorb blk) := by
  simp [beginCommand, hf, hdec, hd, hlen]

/-- No other command has micro-steps (R128). -/
theorem beginCommand_of_ne {s : State} {i : Instr} (hdec : decode s.cmd = .ok i) (habsorb : i ≠ .spAbsorb)
    (hhash : i ≠ .spHash) : beginCommand s = exec i s := by
  unfold beginCommand
  split
  case h_1 _ hcmd _ _ => exact absurd (Except.ok.inj (hdec.symm.trans hcmd)) habsorb
  case h_2 _ hcmd _ _ => exact absurd (Except.ok.inj (hdec.symm.trans hcmd)) hhash
  case h_3 => exact runCommand_ok hdec

/-! ### Micro-steps -/

section
variable {s : State}

theorem microStep_pad {m : List Byte} (hf : s.fsm = .pad) (hd : s.din = .bytes m) :
    microStep s = .next (s.padStep m) := by
  simp only [microStep, hf, hd]

theorem microStep_xor (hf : s.fsm = .xor) (hblk : 1088 * s.blk + 1088 ≤ s.pbuf.length) :
    microStep s = .next s.xorStep := by
  simp only [microStep, hf, if_pos (length_blockAt (P := s.pbuf) (j := s.blk) (by omega))]

theorem microStep_squeeze (hf : s.fsm = .squeeze) : microStep s = .next s.squeezeStep := by
  simp only [microStep, hf]

theorem microStep_perm (hf : s.fsm = .perm) : microStep s = permStep s := by
  simp only [microStep, hf]

theorem microStep_round (hf : s.fsm = .perm) (hrnd : s.rnd.toNat < 23) :
    microStep s = .next (s.permNextRound (roundFunction s.state ⟨s.rnd.toNat, by omega⟩)) := by
  rw [microStep_perm hf, permStep, dif_pos (by omega)]
  exact if_pos hrnd

/-- With RND = 23 the block counter and SQZ decide the row. -/
theorem microStep_lastRound (hf : s.fsm = .perm) (hrnd : s.rnd = 23) :
    microStep s =
      if s.blk + 1 < s.nblk then .next (s.permNextBlock (roundFunction s.state 23))
      else if s.blk + 1 = s.nblk then
        .next (if s.sqz then s.permToSqueeze (roundFunction s.state 23) else s.permFinish (roundFunction s.state 23))
      else .fault .noTransition := by
  have hround (h : s.rnd.toNat < 24) : (⟨s.rnd.toNat, h⟩ : Fin 24) = 23 := Fin.ext (by simp [hrnd])
  have hlt : s.rnd.toNat < 24 := by simp [hrnd]
  have hge : ¬ s.rnd.toNat < 23 := by simp [hrnd]
  simp only [microStep_perm hf, permStep, dif_pos hlt, if_neg hge, hround]

theorem microStep_nextBlock (hf : s.fsm = .perm) (hrnd : s.rnd = 23) (hblk : s.blk + 1 < s.nblk) :
    microStep s = .next (s.permNextBlock (roundFunction s.state 23)) := by
  rw [microStep_lastRound hf hrnd, if_pos hblk]

theorem microStep_toSqueeze (hf : s.fsm = .perm) (hrnd : s.rnd = 23) (hblk : s.blk + 1 = s.nblk) (hsqz : s.sqz = true) :
    microStep s = .next (s.permToSqueeze (roundFunction s.state 23)) := by
  rw [microStep_lastRound hf hrnd, if_neg hblk.not_lt, if_pos hblk, if_pos hsqz]

theorem microStep_finish (hf : s.fsm = .perm) (hrnd : s.rnd = 23) (hblk : s.blk + 1 = s.nblk) (hsqz : s.sqz = false) :
    microStep s = .next (s.permFinish (roundFunction s.state 23)) := by
  rw [microStep_lastRound hf hrnd, if_neg hblk.not_lt, if_pos hblk, if_neg (by simp [hsqz])]

end

/-- Of the outcomes of an accepted command only a raised error leaves IDLE for FAULT (R125, R153). -/
theorem beginCommand_to_fault {s t : State} (hf : s.fsm = .idle) (h : beginCommand s = .next t) (ht : t.fsm = .fault) :
    ∃ code, code ≠ .none ∧ t = s.raise code := by
  rcases beginCommand_cases h with hrun | ⟨-, ⟨blk, -, -, rfl⟩ | ⟨m, -, -, rfl⟩⟩
  · rcases runCommand_cases (by rw [hf]; rfl) hrun with ⟨hfault, -⟩ | ⟨-, hraise⟩ | ⟨-, rfl⟩ | ⟨S, d, -, rfl⟩
    · cases hf.symm.trans hfault
    · exact hraise
    · cases ht
    · cases hf.symm.trans ht
  · cases ht
  · cases ht

/-- No row of a running sequence leads to FAULT (R125). -/
theorem microStep_fsm_ne_fault {s t : State} (h : microStep s = .next t) : t.fsm ≠ .fault := by
  rcases microStep_cases h with ⟨-, m, -, rfl⟩ | ⟨-, -, rfl⟩ | ⟨hf, hp⟩ | ⟨-, rfl⟩
  · exact nofun
  · exact nofun
  · obtain ⟨-, ⟨-, rfl⟩ | ⟨-, -, rfl⟩ | ⟨-, -, -, rfl⟩ | ⟨-, -, -, rfl⟩⟩ := permStep_cases hp
    · simp [hf]
    · exact nofun
    · exact nofun
    · exact nofun
  · exact nofun

/-- A command executed whole in IDLE ends at a command boundary (R28). -/
theorem exec_idle_boundary (i : Instr) {s t : State} (hf : s.fsm = .idle) (h : exec i s = .next t) :
    t.fsm = .idle ∨ t.fsm = .fault := by
  rcases exec_boundary_cases i (s := s) (by rw [hf]; rfl) with ⟨-, hx⟩ | ⟨-, code, -, hx⟩ | ⟨-, hx⟩ | ⟨S, d, -, hx⟩ <;>
    obtain rfl := Host.Outcome.next.inj (h.symm.trans hx)
  · exact .inl hf
  · exact .inr rfl
  · exact .inl rfl
  · exact .inl hf

theorem holdsResetValues_resetRegs (s : State) (d : Data) : HoldsResetValues (s.resetRegs.ok d) :=
  ⟨rfl, rfl, rfl, rfl, rfl, rfl, rfl, rfl⟩

theorem holdsResetValues_powerOn (s : State) (rest : List HostMove) : HoldsResetValues (s.powerOn rest) :=
  ⟨rfl, rfl, rfl, rfl, rfl, rfl, rfl, rfl⟩

/-- Settles O39, row by row. -/
theorem spongeStateMachineTable : Obligations.SpongeStateMachineTable := by
  refine ⟨fun s m hf hdec hd hfits => beginCommand_spHash hf hdec hd hfits,
    fun s blk hf hdec hd hlen => beginCommand_spAbsorb hf hdec hd hlen,
    fun s m hf hd => microStep_pad hf hd, fun s hf hblk => microStep_xor hf hblk,
    fun s _ hf hrnd => microStep_round hf hrnd, fun s hf hrnd hblk => microStep_nextBlock hf hrnd hblk,
    fun s hf hrnd hblk hsqz => microStep_toSqueeze hf hrnd hblk hsqz,
    fun s hf hrnd hblk hsqz => microStep_finish hf hrnd hblk hsqz, fun s hf => microStep_squeeze hf,
    fun s t hf h ht => ?_, fun s t _ h => microStep_fsm_ne_fault h, fun s t i hf hdec habsorb hhash h => ?_,
    fun s hf hdec => ?_, fun s rest hi => ⟨s.powerOn rest, ?_, holdsResetValues_powerOn s rest⟩⟩
  · obtain ⟨code, hcode, rfl⟩ := beginCommand_to_fault hf h ht
    exact ⟨code, hcode, h⟩
  · rw [beginCommand_of_ne hdec habsorb hhash] at h
    exact exec_idle_boundary i hf h
  · exact ⟨_, (beginCommand_of_ne hdec nofun nofun).trans (exec_sysReset (.inr hf)), holdsResetValues_resetRegs s _⟩
  · simp only [microViewStep, hi]

end Sys2Proof.Machine
end

section
/-! Whole sequences of micro-steps (rule R128): the rows of R125 run one after the other, round by round and block by block, end in
the state of the atomic command. -/

namespace Sys2Proof.Machine

/-! ### A running sequence -/

/-- `n` micro-steps lead from `s` to `t`, and the sequence still runs before each of them. -/
def MicroRun (n : Nat) (s t : State) : Prop :=
  runWith microViewStep n s = .next t ∧ ∀ k < n, ∃ u, runWith microViewStep k s = .next u ∧ u.fsm.busy = true

theorem MicroRun.refl (s : State) : MicroRun 0 s s := ⟨rfl, nofun⟩

theorem MicroRun.trans {m n : Nat} {s t u : State} (h : MicroRun m s t) (h' : MicroRun n t u) : MicroRun (m + n) s u := by
  obtain ⟨hrun, hbusy⟩ := h
  obtain ⟨hrun', hbusy'⟩ := h'
  refine ⟨(runWith_add hrun n).trans hrun', fun k hk => ?_⟩
  rcases Nat.lt_or_ge k m with hkm | hkm
  · exact hbusy k hkm
  · obtain ⟨j, rfl⟩ := Nat.exists_eq_add_of_le hkm
    rw [runWith_add hrun]
    exact hbusy' j (by omega)

/-- While a sequence runs and no power-on reset comes, a step of the micro-step view is a micro-step (R172, R174). -/
theorem microViewStep_busy {s : State} (hb : s.fsm.busy = true) (hreset : NoResetNext s.inbox) :
    microViewStep s = microStep s := by
  unfold microViewStep
  cases hi : s.inbox with
  | nil => exact if_pos hb
  | cons move rest =>
    cases move with
    | powerOnReset => exact absurd hi (hreset rest)
    | command c => exact if_pos hb

theorem MicroRun.single {s t : State} (hb : s.fsm.busy = true) (hreset : NoResetNext s.inbox)
    (h : microStep s = .next t) : MicroRun 1 s t := by
  refine ⟨runWith_succ ((microViewStep_busy hb hreset).trans h) 0, fun k hk => ?_⟩
  obtain rfl : k = 0 := by omega
  exact ⟨s, rfl, hb⟩

/-- The step that accepts a command, and the sequence it begins (R125, R128). -/
theorem MicroRun.from_acceptance {n : Nat} {s s' t : State} (hbegin : microViewStep s = .next s') (h : MicroRun n s' t) :
    runWith microViewStep (n + 1) s = .next t ∧
      ∀ k, 0 < k → k < n + 1 → ∃ u, runWith microViewStep k s = .next u ∧ u.fsm.busy = true := by
  obtain ⟨hrun, hbusy⟩ := h
  refine ⟨(runWith_succ hbegin n).trans hrun, fun k hpos hk => ?_⟩
  obtain ⟨j, rfl⟩ := Nat.exists_eq_add_of_lt hpos
  rw [Nat.zero_add, runWith_succ hbegin]
  exact hbusy j (by omega)

/-! ### One block -/

theorem keccakF_eq_lastRound (A : KState) : keccakF A = roundFunction (afterRounds A 23) 23 := by
  rw [← afterRounds_all]
  exact afterRounds_succ A ⟨23, by decide⟩

/-- PERM with `S` in STATE after `n` rounds. The state `S` is kept apart from the rounds that made it, so that no comparison of
registers evaluates them. -/
def State.permAt (s : State) (S : KState) (n : Nat) : State :=
  { s with fsm := .perm, state := S, rnd := BitVec.ofNat 5 n }

section
variable {s : State} (S : KState)

theorem microStep_permAt {n : Nat} (hn : n < 23) :
    microStep (s.permAt S n) = .next (s.permAt (roundFunction S ⟨n, by omega⟩) (n + 1)) := by
  have hrnd : (s.permAt S n).rnd.toNat = n := by
    rw [State.permAt, BitVec.toNat_ofNat, Nat.mod_eq_of_lt (by omega)]
  have hround : (⟨(s.permAt S n).rnd.toNat, by omega⟩ : Fin 24) = ⟨n, by omega⟩ := Fin.ext hrnd
  rw [microStep_round rfl (by omega), hround, State.permNextRound, State.permAt, State.permAt, BitVec.ofNat_add]
  rfl

theorem microStep_permAt_nextBlock (hblk : s.blk + 1 < s.nblk) :
    microStep (s.permAt S 23) = .next (s.permNextBlock (roundFunction S 23)) :=
  microStep_nextBlock rfl rfl hblk

theorem microStep_permAt_toSqueeze (hblk : s.blk + 1 = s.nblk) (hsqz : s.sqz = true) :
    microStep (s.permAt S 23) = .next (s.permToSqueeze (roundFunction S 23)) :=
  microStep_toSqueeze rfl rfl hblk hsqz

theorem microStep_permAt_finish (hblk : s.blk + 1 = s.nblk) (hsqz : s.sqz = false) :
    microStep (s.permAt S 23) = .next (s.permFinish (roundFunction S 23)) :=
  microStep_finish rfl rfl hblk hsqz

variable (hreset : NoResetNext s.inbox)
include hreset

theorem MicroRun.permAt_single {n : Nat} {t : State} (h : microStep (s.permAt S n) = .next t) :
    MicroRun 1 (s.permAt S n) t := .single rfl hreset h

theorem microRun_rounds {n : Nat} (hn : n ≤ 23) : MicroRun n (s.permAt S 0) (s.permAt (afterRounds S n) n) := by
  induction n with
  | zero => exact .refl _
  | succ n ih =>
    rw [afterRounds_succ S ⟨n, by omega⟩]
    exact (ih (by omega)).trans (.permAt_single _ hreset (microStep_permAt _ (by omega)))

end

section
variable {s : State} (hreset : NoResetNext s.inbox) (hf : s.fsm = .xor) (hpbuf : s.pbuf.length = 1088 * s.nblk)
include hreset hf hpbuf

/-- XOR and the rounds of block BLK; what the last of them does is one of three rows of R125. -/
theorem microRun_block {t : State} (hblk : s.blk < s.nblk)
    (hlast : microStep (s.permAt (afterRounds (xorRate s.state (blockAt s.pbuf s.blk)) 23) 23) = .next t) :
    MicroRun 25 s t := by
  have hxor : MicroRun 1 s (s.permAt (xorRate s.state (blockAt s.pbuf s.blk)) 0) :=
    .single (by rw [hf]; rfl) hreset (microStep_xor hf (by omega))
  exact (hxor.trans (microRun_rounds _ hreset le_rfl)).trans (.permAt_single _ hreset hlast)

theorem microRun_nextBlock (hblk : s.blk + 1 < s.nblk) :
    MicroRun 25 s (s.permNextBlock (absorbBlock s.state (blockAt s.pbuf s.blk))) := by
  rw [absorbBlock, keccakF_eq_lastRound]
  exact microRun_block hreset hf hpbuf (by omega) (microStep_permAt_nextBlock _ hblk)

theorem microRun_toSqueeze (hblk : s.blk + 1 = s.nblk) (hsqz : s.sqz = true) :
    MicroRun 25 s (s.permToSqueeze (absorbBlock s.state (blockAt s.pbuf s.blk))) := by
  rw [absorbBlock, keccakF_eq_lastRound]
  exact microRun_block hreset hf hpbuf (by omega) (microStep_permAt_toSqueeze _ hblk hsqz)

theorem microRun_finish (hblk : s.blk + 1 = s.nblk) (hsqz : s.sqz = false) :
    MicroRun 25 s (s.permFinish (absorbBlock s.state (blockAt s.pbuf s.blk))) := by
  rw [absorbBlock, keccakF_eq_lastRound]
  exact microRun_block hreset hf hpbuf (by omega) (microStep_permAt_finish _ hblk hsqz)

end

/-! ### All blocks -/

/-- XOR with the first `n` blocks of PBUF absorbed into STATE. -/
def State.xorAfter (s : State) (n : Nat) : State :=
  { s with fsm := .xor, state := absorbFirst s.state s.pbuf n, rnd := 0, blk := n }

theorem xorAfter_zero {s : State} (hf : s.fsm = .xor) (hrnd : s.rnd = 0) (hblk : s.blk = 0) : s.xorAfter 0 = s := by
  rw [State.xorAfter, absorbFirst_zero, ← hf, ← hrnd, ← hblk]

theorem absorbBlock_xorAfter (s : State) (n : Nat) :
    absorbBlock (s.xorAfter n).state (blockAt (s.xorAfter n).pbuf (s.xorAfter n).blk) = absorbFirst s.state s.pbuf (n + 1) :=
  (absorbFirst_succ s.state s.pbuf n).symm

theorem microRun_blocks {s : State} (hreset : NoResetNext s.inbox) (hpbuf : s.pbuf.length = 1088 * s.nblk) {n : Nat}
    (hn : n < s.nblk) : MicroRun (25 * n) (s.xorAfter 0) (s.xorAfter n) := by
  induction n with
  | zero => exact .refl _
  | succ n ih =>
    have hblock := microRun_nextBlock (s := s.xorAfter n) hreset rfl hpbuf hn
    rw [absorbBlock_xorAfter] at hblock
    exact (ih (by omega)).trans hblock

/-! ### Whole commands -/

/-- The registers when a command is over: IDLE, the sequencer quiet and `S` in STATE (R28). -/
def State.ended (s : State) (S : KState) : State :=
  { s with fsm := .idle, state := S, rnd := 0, blk := 0, nblk := 0, sqz := false, pbuf := [] }

theorem ended_of_quiet {s : State} (hf : s.fsm = .idle) (hquiet : SequencerQuiet s) (S : KState) :
    s.ended S = s.setState S := by
  obtain ⟨hrnd, hblk, hnblk, hsqz, hpbuf⟩ := hquiet
  simp only [State.ended, State.setState, hf, hrnd, hblk, hnblk, hsqz, hpbuf]

/-- SP.ABSORB from its acceptance: one XOR, 24 PERM (R128). -/
theorem microRun_absorb {s : State} {blk : Bits} (hreset : NoResetNext s.inbox) (hlen : blk.length = 1088) :
    MicroRun 25 (s.beginAbsorb blk) ((s.ended (absorbBlock s.state blk)).ok .none) := by
  have hblk : blockAt blk 0 = blk := by simp [blockAt, slice, ← hlen]
  have hrun := microRun_finish (s := s.beginAbsorb blk) hreset rfl hlen rfl rfl
  rwa [State.beginAbsorb_pbuf, State.beginAbsorb_blk, hblk] at hrun

theorem microRun_squeeze {s : State} (hreset : NoResetNext s.inbox) (S : KState) :
    MicroRun 1 (s.permToSqueeze S) ((s.ended S).ok (.bytes (squeezeDigest S))) :=
  .single rfl hreset (microStep_squeeze rfl)

/-- From the first block of a message to the answer: all blocks, then SQUEEZE. -/
theorem microRun_blocks_squeeze {s : State} (hreset : NoResetNext s.inbox) (hpbuf : s.pbuf.length = 1088 * s.nblk)
    (hsqz : s.sqz = true) {n : Nat} (hn : n + 1 = s.nblk) :
    MicroRun (25 * n + 25 + 1) (s.xorAfter 0)
      ((s.ended (absorbFirst s.state s.pbuf (n + 1))).ok (.bytes (squeezeDigest (absorbFirst s.state s.pbuf (n + 1))))) := by
  have hlast := microRun_toSqueeze (s := s.xorAfter n) hreset rfl hpbuf hn hsqz
  rw [absorbBlock_xorAfter] at hlast
  exact ((microRun_blocks hreset hpbuf (by omega)).trans hlast).trans (microRun_squeeze (s := s.xorAfter n) hreset _)

/-- SP.HASH from its acceptance: one PAD, the blocks, one SQUEEZE (R128). -/
theorem microRun_hash {s : State} {m : List Byte} (hreset : NoResetNext s.inbox) (hrnd : s.rnd = 0)
    (hd : s.din = .bytes m) :
    MicroRun (2 + 25 * (m.length / 136 + 1)) s.beginHash ((s.ended (hashState m)).ok (.bytes (keccak256 m))) := by
  have hnblk : (s.beginHash.padStep m).nblk = m.length / 136 + 1 := blocks_pad_bytes m
  have hpbuf : (s.beginHash.padStep m).pbuf.length = 1088 * (s.beginHash.padStep m).nblk := by
    rw [hnblk]
    exact length_pad_bytes m
  have hpad : MicroRun 1 s.beginHash ((s.beginHash.padStep m).xorAfter 0) := by
    rw [xorAfter_zero (s := s.beginHash.padStep m) rfl hrnd rfl]
    exact .single rfl hreset (microStep_pad rfl hd)
  have hblocks := microRun_blocks_squeeze (s := s.beginHash.padStep m) hreset hpbuf rfl hnblk.symm
  have hcount : 2 + 25 * (m.length / 136 + 1) = 1 + (25 * (m.length / 136) + 25 + 1) := by omega
  rw [State.padStep_state, State.padStep_pbuf, ← hashState_eq_absorbFirst] at hblocks
  rw [hcount, keccak256]
  exact hpad.trans hblocks

/-- A command that runs whole in one step of the atomic view, and in the micro-step view runs as the sequence it begins. -/
theorem microSteps_eq_step {s b : State} {c : Command} {rest : List HostMove} {i : Instr} {S : KState} {d : Data} {n : Nat}
    (hf : s.fsm = .idle) (hquiet : SequencerQuiet s) (hi : s.inbox = .command c :: rest) (hdec : decode c.word = .ok i)
    (hexec : exec i (s.accept c rest) = completes { s.accept c rest with state := S } d)
    (hbegin : beginCommand (s.accept c rest) = .next b) (hrun : MicroRun n b (((s.accept c rest).ended S).ok d)) :
    runWith microViewStep (n + 1) s = step s ∧
      ∀ k, 0 < k → k < n + 1 → ∃ u, runWith microViewStep k s = .next u ∧ u.fsm.busy = true := by
  have hview : microViewStep s = beginCommand (s.accept c rest) := by
    simp [microViewStep, hi, not_busy_of_boundary (.inl hf)]
  have hstep := calc
    step s = runCommand (s.accept c rest) := step_command (.inl hf) hi
    _ = exec i (s.accept c rest) := runCommand_ok hdec
    _ = .next (((s.accept c rest).setState S).ok d) := hexec
  rw [ended_of_quiet (s := s.accept c rest) hf hquiet] at hrun
  rw [hstep]
  exact hrun.from_acceptance (hview.trans hbegin)

/-- Settles O40: the sequence is `microRun_absorb`. -/
theorem absorbMicroStepsEqualTheAtomicStep : Obligations.AbsorbMicroStepsEqualTheAtomicStep := by
  intro s blk rest hf hquiet hi hlen hreset
  have hdec : decode 0x0041 = .ok .spAbsorb := rfl
  exact microSteps_eq_step hf hquiet hi hdec ((exec_spAbsorb (s := s.accept _ rest) hf rfl).trans (if_pos hlen))
    (beginCommand_spAbsorb hf hdec rfl hlen) (microRun_absorb hreset hlen)

/-- Settles O41: the sequence is `microRun_hash`. -/
theorem hashMicroStepsEqualTheAtomicStep : Obligations.HashMicroStepsEqualTheAtomicStep := by
  intro s m rest hf hquiet hi hfits hreset
  have hcount : 3 + 25 * (m.length / 136 + 1) = 2 + 25 * (m.length / 136 + 1) + 1 := by omega
  rw [hcount]
  have hdec : decode 0x0043 = .ok .spHash := rfl
  have ⟨hrnd, _⟩ := hquiet
  exact microSteps_eq_step hf hquiet hi hdec ((exec_spHash (s := s.accept _ rest) hf rfl).trans (if_pos hfits))
    (beginCommand_spHash hf hdec rfl hfits) (microRun_hash hreset hrnd rfl)

end Sys2Proof.Machine
end

section
/-! The system commands (rules R140 to R142) and the status word (R23). -/

namespace Sys2Proof.Machine

/-! ### The status word -/

/-- The fields of the status word lie where R23 lays them. -/
theorem statusWord_fields (err : ErrCode) (fsm : Fsm) :
    (statusWord err fsm).extractLsb' 0 3 = fsm.bits ∧ (statusWord err fsm).extractLsb' 3 1 = 0 ∧
      (statusWord err fsm).extractLsb' 4 4 = err.bits ∧ (statusWord err fsm).extractLsb' 8 8 = 0 := by
  refine ⟨?_, ?_, ?_, ?_⟩ <;> apply BitVec.eq_of_getLsbD_eq <;> intro k hk <;>
    simp only [statusWord, BitVec.getLsbD_extractLsb', BitVec.getLsbD_or, BitVec.getLsbD_shiftLeft,
      BitVec.getLsbD_setWidth, hk] <;>
    (interval_cases k <;> simp)

/-- The status word in FAULT is `0x0007 | (code << 4)` (R141). -/
theorem statusWord_fault (err : ErrCode) : statusWord err .fault = 0x0007 ||| (err.bits.setWidth 16 <<< 4) :=
  BitVec.or_comm _ _

/-! ### The commands -/

theorem exec_sysNop {s : State} (hf : s.fsm = .idle) (hd : s.din = .none) : exec .sysNop s = completes s .none := by
  simp only [exec, execSysNop, State.inIdle_idle hf, State.takeNone_of hd]
  rfl

/-- SYS.STATUS executes in IDLE with no operand and in FAULT with any (R141, R152). -/
theorem exec_sysStatus {s : State} (h : (s.fsm = .idle ∧ s.din = .none) ∨ s.fsm = .fault) :
    exec .sysStatus s = completes s (.word (statusWord s.err s.fsm)) := by
  rcases h with ⟨hf, hd⟩ | hf
  · simp only [exec, execSysStatus, hf, State.takeNone_of hd]
    rfl
  · rw [exec_sysStatus_fault hf, hf]
    rfl

/-- SYS.RESET is the only command that leaves FAULT (R142, R156). -/
theorem exec_fsm_eq_fault {i : Instr} {s t : State} (hf : s.fsm = .fault) (hreset : i ≠ .sysReset)
    (h : exec i s = .next t) : t.fsm = .fault := by
  by_cases hstatus : i = .sysStatus
  · subst hstatus
    obtain rfl := Host.Outcome.next.inj (h.symm.trans (exec_sysStatus_fault hf))
    exact hf
  · obtain rfl := Host.Outcome.next.inj (h.symm.trans (exec_fault hf hreset hstatus))
    exact hf

/-! ### The obligations -/

/-- Settles O11: the response word of the all-zero command word is the all-zero word, as OK is 0 and OPCE repeats OPC (R55). -/
theorem sysNopDoesNothing : Obligations.SysNopDoesNothing := by
  refine ⟨rfl, fun s hf hd => exec_sysNop hf hd, fun s hf hk => exec_operandKind hf nofun nofun hk,
    fun s hf => exec_fault hf nofun nofun, fun s hf hd hcmd => ?_⟩
  have hresp : respWord .ok 0 (opcField s.cmd) = 0x0000 := by rw [hcmd]; rfl
  rw [exec_sysNop hf hd, completes, hresp]

/-- Settles O12: the answer is `statusWord` of ERR and FSM, which at a command boundary is all zero in IDLE. -/
theorem sysStatusReadsFsmAndErr : Obligations.SysStatusReadsFsmAndErr := by
  refine ⟨rfl, fun s h => ?_, fun s hf hk => exec_operandKind hf nofun nofun hk⟩
  obtain ⟨hfsm, hzero, herr, hhigh⟩ := statusWord_fields s.err s.fsm
  refine ⟨statusWord s.err s.fsm, exec_sysStatus h, hfsm, hzero, herr, hhigh, fun hnone hsome => ?_⟩
  rcases h with ⟨hf, -⟩ | hf
  · refine .inl ⟨hf, ?_⟩
    rw [hnone hf, hf]
    rfl
  · refine .inr ⟨hf, s.err, hsome hf, ?_⟩
    rw [hf, statusWord_fault]

/-- Settles O13: at a command boundary SYS.RESET is `exec_sysReset`, and every other command stays in FAULT. -/
theorem sysResetResetsWithAnyOperand : Obligations.SysResetResetsWithAnyOperand := by
  refine ⟨rfl, fun s hf => exec_sysReset hf, fun i s t hf h ht => ?_⟩
  by_contra hi
  exact ht (exec_fsm_eq_fault hf hi h)

end Sys2Proof.Machine
end

section
/-! Errors and FAULT (rules R150 to R156, R163): what a command word does in FAULT, and the order of the checks in IDLE. -/

namespace Sys2Proof.Machine

/-! ### Operands by their kind -/

theorem Data.kind_eq_none {d : Data} : d.kind = .none ↔ d = .none := by cases d <;> simp [Data.kind]

theorem Data.kind_eq_bytes {d : Data} : d.kind = .bytes ↔ ∃ m, d = .bytes m := by cases d <;> simp [Data.kind]

theorem Data.kind_eq_bits {d : Data} : d.kind = .bits ↔ ∃ b, d = .bits b := by cases d <;> simp [Data.kind]

theorem Data.kind_eq_lane {d : Data} : d.kind = .lane ↔ ∃ v, d = .lane v := by cases d <;> simp [Data.kind]

theorem Data.kind_eq_state {d : Data} : d.kind = .state ↔ ∃ t, d = .state t := by cases d <;> simp [Data.kind]

/-! ### Commands in FAULT -/

/-- In FAULT every word, legal or not, but those of SYS.RESET and SYS.STATUS is answered FAULTED (R152). -/
theorem runCommand_fault {s : State} (hf : s.fsm = .fault) (hreset : decode s.cmd ≠ .ok .sysReset)
    (hstatus : decode s.cmd ≠ .ok .sysStatus) : runCommand s = isAnsweredFaulted s := by
  cases hdec : decode s.cmd with
  | error e => exact runCommand_illegal_fault hf hdec
  | ok i =>
    rw [runCommand_ok hdec]
    exact exec_fault hf (fun hi => hreset (hi ▸ hdec)) (fun hi => hstatus (hi ▸ hdec))

/-- The operation code of a word that decodes is that of its command (R53). -/
theorem opcField_of_decode {w : Word16} {i : Instr} (h : decode w = .ok i) : opcField w = i.opcode := by
  rw [← (encodeOfDecode w i h).2]
  exact (Laws.WordFields.fields_of_layout i.irBits i.opcode).1

/-- The OPCE field of the response to a word that decodes is the operation code of its command (R55). -/
theorem respWord_of_decode {w : Word16} {i : Instr} (h : decode w = .ok i) (st : RespStatus) (code : BitVec 4) :
    respWord st code (opcField w) = respWord st code i.opcode := by rw [opcField_of_decode h]

/-- Settles O45: of the commands only SYS.RESET and SYS.STATUS execute in FAULT. -/
theorem faultIsSticky : Obligations.FaultIsSticky := by
  intro s c rest hf hi
  rw [step_command (.inr hf) hi]
  refine ⟨fun hdec => ?_, fun hdec => ?_, fun hreset hstatus => ?_⟩
  · have hrun := (runCommand_ok (s := s.accept c rest) hdec).trans (exec_sysReset (.inr hf))
    refine ⟨_, hrun, holdsResetValues_resetRegs _ _, ?_⟩
    rw [State.ok_resp, State.resetRegs_cmd, State.accept_cmd, respWord_of_decode hdec]
    rfl
  · have hrun := (runCommand_ok (s := s.accept c rest) hdec).trans (exec_sysStatus_fault hf)
    refine ⟨_, hrun, ?_, rfl⟩
    rw [State.ok_resp, State.accept_cmd, respWord_of_decode hdec]
    rfl
  · exact runCommand_fault (s := s.accept c rest) hf hreset hstatus

/-- Settles O47: of the outcomes of a step from FAULT only the two resets write FSM or ERR. -/
theorem onlyResetLeavesFault : Obligations.OnlyResetLeavesFault := by
  intro s t hf h
  rcases step_cases s with ⟨rest, hi, hstep⟩ | ⟨-, hbusy, -⟩ | ⟨c, rest, hi, hb, hstep⟩ | ⟨-, -, hstep⟩
  · obtain rfl := Host.Outcome.next.inj (hstep.symm.trans h)
    exact .inr ⟨holdsResetValues_powerOn s rest, .inl ⟨rest, hi⟩⟩
  · exact absurd ((not_busy_of_boundary (.inr hf)).symm.trans hbusy) (by decide)
  · rcases runCommand_cases (s := s.accept c rest) hb (hstep.symm.trans h) with
      ⟨-, rfl⟩ | ⟨hidle, -⟩ | ⟨hdec, rfl⟩ | ⟨S, d, -, rfl⟩
    · exact .inl ⟨hf, rfl⟩
    · cases hf.symm.trans hidle
    · exact .inr ⟨holdsResetValues_resetRegs _ _, .inr ⟨c, rest, hi, hdec⟩⟩
    · exact .inl ⟨hf, rfl⟩
  · obtain rfl := Host.Outcome.next.inj (hstep.symm.trans h)
    exact .inl ⟨hf, rfl⟩

/-! ### Errors raised in IDLE -/

/-- Settles O43: of the outcomes of a command accepted in IDLE only `State.raise` ends in FAULT. -/
theorem raisingAnErrorIsPrecise : Obligations.RaisingAnErrorIsPrecise := by
  intro s t c rest hf hi h ht
  have hb := not_busy_of_boundary (.inl hf)
  rw [step_command (.inl hf) hi] at h
  refine ⟨?_, fun hs => ?_⟩
  · rcases runCommand_cases (s := s.accept c rest) hb h with
      ⟨hfault, -⟩ | ⟨-, code, hcode, rfl⟩ | ⟨-, rfl⟩ | ⟨S, d, -, rfl⟩
    · cases hf.symm.trans hfault
    · exact ⟨code, hcode, rfl⟩
    · cases ht
    · cases hf.symm.trans ht
  · obtain ⟨-, -, herr⟩ := (engineInv_iff_of_not_busy hb).mp hs
    exact herr.mpr hf

/-- In IDLE a command that passes every check of R153 completes in IDLE with a result of its kind. -/
theorem exec_idle_completes {i : Instr} {s : State} (hf : s.fsm = .idle) (hround : ∀ ir, i = .kfRound ir → ir < 24)
    (hkind : i ≠ .sysReset → s.din.kind = i.operandKind)
    (hblock : ∀ b, i = .spAbsorb → s.din = .bits b → b.length = 1088)
    (hcount : ∀ b, i = .cvBits2b ∨ i = .pdPad → s.din = .bits b → b.length % 8 = 0)
    (hlane : ∀ b, i = .cvBits2lane → s.din = .bits b → b.length = 64)
    (hmsg : ∀ m, i = .spHash → s.din = .bytes m → s.cfg.exceeds m.length = false) :
    ∃ (u : State) (d : Data), u.fsm = .idle ∧ d.kind = i.resultKind ∧ exec i s = completes u d := by
  cases i with
  | sysReset => exact ⟨s.resetRegs, .none, rfl, rfl, exec_sysReset (.inl hf)⟩
  | sysNop => exact ⟨s, _, hf, rfl, exec_sysNop hf (Data.kind_eq_none.mp (hkind nofun))⟩
  | sysStatus => exact ⟨s, _, hf, rfl, exec_sysStatus (.inl ⟨hf, Data.kind_eq_none.mp (hkind nofun)⟩)⟩
  | spInit => exact ⟨{ s with state := 0 }, _, hf, rfl, exec_spInit hf (Data.kind_eq_none.mp (hkind nofun))⟩
  | spSqueeze => exact ⟨s, _, hf, rfl, exec_spSqueeze hf (Data.kind_eq_none.mp (hkind nofun))⟩
  | cvB2bits =>
    obtain ⟨m, hd⟩ := Data.kind_eq_bytes.mp (hkind nofun)
    exact ⟨s, _, hf, rfl, exec_cvB2bits hf hd⟩
  | spHash =>
    obtain ⟨m, hd⟩ := Data.kind_eq_bytes.mp (hkind nofun)
    exact ⟨{ s with state := hashState m }, _, hf, rfl, (exec_spHash hf hd).trans (if_pos (hmsg m rfl hd))⟩
  | cvBits2b =>
    obtain ⟨b, hd⟩ := Data.kind_eq_bits.mp (hkind nofun)
    exact ⟨s, _, hf, rfl, (exec_cvBits2b hf hd).trans (if_pos (hcount b (.inl rfl) hd))⟩
  | pdPad =>
    obtain ⟨b, hd⟩ := Data.kind_eq_bits.mp (hkind nofun)
    exact ⟨s, _, hf, rfl, (exec_pdPad hf hd).trans (if_pos (hcount b (.inr rfl) hd))⟩
  | cvBits2lane =>
    obtain ⟨b, hd⟩ := Data.kind_eq_bits.mp (hkind nofun)
    exact ⟨s, _, hf, rfl, (exec_cvBits2lane hf hd).trans (if_pos (hlane b rfl hd))⟩
  | spAbsorb =>
    obtain ⟨b, hd⟩ := Data.kind_eq_bits.mp (hkind nofun)
    exact ⟨{ s with state := absorbBlock s.state b }, _, hf, rfl, (exec_spAbsorb hf hd).trans (if_pos (hblock b rfl hd))⟩
  | cvLane2bits =>
    obtain ⟨v, hd⟩ := Data.kind_eq_lane.mp (hkind nofun)
    exact ⟨s, _, hf, rfl, exec_cvLane2bits hf hd⟩
  | kfRound ir =>
    obtain ⟨t, hd⟩ := Data.kind_eq_state.mp (hkind nofun)
    exact ⟨s, _, hf, rfl, exec_kfRound hf ⟨ir, hround ir rfl⟩ hd⟩
  | kfPermute =>
    obtain ⟨t, hd⟩ := Data.kind_eq_state.mp (hkind nofun)
    exact ⟨s, _, hf, rfl, exec_kfPermute hf hd⟩

/-- A command that completes answers OK with its result (R55). -/
theorem completes_answer (u : State) (d : Data) :
    ∃ t r, completes u d = .next t ∧ t.fsm = u.fsm ∧ t.resp = some r ∧ r.word.extractLsb' 0 2 = 0 ∧ r.dout = d := by
  obtain ⟨-, -, -, hst⟩ := respWord_fields .ok 0 (opcField u.cmd)
  exact ⟨_, _, rfl, rfl, rfl, hst, rfl⟩

/-- In FAULT SYS.STATUS and SYS.RESET complete (R153). -/
theorem exec_fault_completes {i : Instr} {s : State} (hf : s.fsm = .fault) (hi : i = .sysStatus ∨ i = .sysReset) :
    ∃ u d, exec i s = completes u d := by
  rcases hi with rfl | rfl
  · exact ⟨s, _, exec_sysStatus (.inr hf)⟩
  · exact ⟨s.resetRegs, .none, exec_sysReset (.inr hf)⟩

/-- Settles O46: each check is the equation of the command that makes it, and a command that passes them all completes. -/
theorem firstFailingCheckDecides : Obligations.FirstFailingCheckDecides := by
  refine ⟨fun s hf hstatus hreset => runCommand_fault hf hreset hstatus, fun s i hf hdec hi => ?_,
    fun s hf => ⟨fun e hdec => runCommand_illegal_idle hf hdec, fun i hdec => ?_⟩⟩
  · obtain ⟨u, d, hx⟩ := exec_fault_completes hf hi
    obtain ⟨t, r, ht, -, hr, hst, -⟩ := completes_answer u d
    exact ⟨t, r, ((runCommand_ok hdec).trans hx).trans ht, hr, hst⟩
  · rw [runCommand_ok hdec]
    refine ⟨?_, fun hround hreset hk => exec_operandKind hf hreset hround hk, ?_, ?_, ?_, ?_,
      fun hround hkind hblock hcount hlane hmsg => ?_⟩
    · rintro ir rfl hir
      exact exec_kfRound_roundIndex hf hir
    · rintro b rfl hd hb
      exact (exec_spAbsorb hf hd).trans (if_neg hb)
    · rintro b (rfl | rfl) hd hb
      · exact (exec_cvBits2b hf hd).trans (if_neg hb)
      · exact (exec_pdPad hf hd).trans (if_neg hb)
    · rintro b rfl hd hb
      exact (exec_cvBits2lane hf hd).trans (if_neg hb)
    · rintro m rfl hd hm
      exact (exec_spHash hf hd).trans (if_neg (by simp [hm]))
    · obtain ⟨u, d, hu, hd, hx⟩ := exec_idle_completes hf hround hkind hblock hcount hlane hmsg
      obtain ⟨t, r, ht, hfsm, hr, hst, hdout⟩ := completes_answer u d
      exact ⟨t, r, hx.trans ht, hfsm.trans hu, hr, hst, (congrArg Data.kind hdout).trans hd⟩

/-! ### Codes, and waiting -/

/-- Settles O44, by evaluation of the three tables. -/
theorem codesAndClassesOfTheSpec : Obligations.CodesAndClassesOfTheSpec := ⟨rfl, rfl, rfl⟩

/-- Settles O9: at a command boundary no sequence runs, so that a step with no move to come waits. -/
theorem engineHoldsItsStateBetweenCommands : Obligations.EngineHoldsItsStateBetweenCommands := by
  intro s hf hi
  simp [step, hi, not_busy_of_boundary hf]

end Sys2Proof.Machine
end

section
/-! A platform of several engines (rules R161, R45): a step of one engine leaves the others as they are, so that a schedule is, for
each engine, as many steps of its own as it stands there. -/

namespace Sys2Proof.Machine

/-- What a step of engine `k` does to the platform: that engine takes its step and nothing else changes. -/
theorem Platform.stepEngine_next {p q : Platform} {k : Nat} (h : p.stepEngine k = .next q) :
    ∃ s t, p.engines[k]? = some s ∧ step s = .next t ∧ q = { p with engines := p.engines.set k t } := by
  unfold Platform.stepEngine at h
  cases hk : p.engines[k]? with
  | none => simp [hk] at h
  | some s =>
    cases hs : step s with
    | next t =>
      simp only [hk, hs] at h
      exact ⟨s, t, rfl, hs, (Host.Outcome.next.inj h).symm⟩
    | fault r => simp [hk, hs] at h
    | refused r => simp [hk, hs] at h

/-- A schedule that no engine stops steps its first engine, then runs the rest. -/
theorem Platform.run_cons_next {p q : Platform} {k : Nat} {ks : List Nat} (h : p.run (k :: ks) = .next q) :
    ∃ p', p.stepEngine k = .next p' ∧ p'.run ks = .next q := by
  unfold Platform.run at h
  cases hp : p.stepEngine k with
  | next p' =>
    simp only [hp] at h
    exact ⟨p', rfl, h⟩
  | fault r => simp [hp] at h
  | refused r => simp [hp] at h

/-- A schedule changes neither the number of engines nor where their ports are mapped. -/
theorem Platform.run_frame {p q : Platform} {schedule : List Nat} (h : p.run schedule = .next q) :
    q.engines.length = p.engines.length ∧ q.engineBase = p.engineBase := by
  induction schedule generalizing p with
  | nil =>
    obtain rfl := Host.Outcome.next.inj h
    exact ⟨rfl, rfl⟩
  | cons k ks ih =>
    obtain ⟨p', hk, hks⟩ := Platform.run_cons_next h
    obtain ⟨s, t, -, -, rfl⟩ := Platform.stepEngine_next hk
    obtain ⟨hlen, hbase⟩ := ih hks
    exact ⟨hlen.trans List.length_set, hbase⟩

/-- A schedule takes engine `j` where as many steps of its own take it as `j` stands in the schedule. -/
theorem Platform.run_engine {p q : Platform} {schedule : List Nat} (h : p.run schedule = .next q) {j : Nat} {s : State}
    (hs : p.engines[j]? = some s) : ∃ t, q.engines[j]? = some t ∧ runWith step (schedule.count j) s = .next t := by
  induction schedule generalizing p s with
  | nil =>
    obtain rfl := Host.Outcome.next.inj h
    exact ⟨s, hs, rfl⟩
  | cons k ks ih =>
    obtain ⟨p', hk, hks⟩ := Platform.run_cons_next h
    obtain ⟨u, u', hu, hstep, rfl⟩ := Platform.stepEngine_next hk
    by_cases hkj : k = j
    · subst hkj
      obtain rfl : u = s := Option.some.inj (hu.symm.trans hs)
      have hlt : k < p.engines.length := (List.getElem?_eq_some_iff.mp hs).1
      rw [List.count_cons_self, runWith_succ hstep]
      exact ih hks (List.getElem?_set_self hlt)
    · rw [List.count_cons_of_ne hkj]
      exact ih hks ((List.getElem?_set_ne hkj).trans hs)

/-- Settles O60, by induction on the schedule: only the engine whose turn it is takes a step. -/
theorem enginesShareNoState : Obligations.EnginesShareNoState := by
  intro p q schedule h
  obtain ⟨hlen, hbase⟩ := Platform.run_frame h
  exact ⟨hlen, hbase, fun k s hs => Platform.run_engine h hs⟩

end Sys2Proof.Machine
end

section
/-! Reset, and commands that come while a sequence runs (rules R170, R172, R174). -/

namespace Sys2Proof.Machine

/-- The ROM of R82, entry by entry. -/
theorem roundConstant_eq_table (ir : Fin 24) : (roundConstant ir).toNat = tableOfR82.getD ir.val 0 := by
  revert ir
  decide

/-- The ROM of R80, entry by entry. -/
theorem rotOffset_eq_table (x y : Fin 5) : rotOffset x y = (tableOfR80.getD y.val []).getD x.val 64 := by
  revert x y
  decide

/-- A power-on reset acts whatever FSM holds (R172). -/
theorem step_powerOn {s : State} {rest : List HostMove} (hi : s.inbox = .powerOnReset :: rest) :
    step s = .next (s.powerOn rest) := by
  simp only [step, hi]

/-- While a sequence runs a presented command is held (R174). -/
theorem step_held {s : State} {c : Command} {rest : List HostMove} (hi : s.inbox = .command c :: rest)
    (hb : s.fsm.busy = true) : step s = microStep s := by
  simp only [step, hi, if_pos hb]

/-- Settles O1: both resets write every register, and the ROMs are constants. -/
theorem resetSetsEveryRegister : Obligations.ResetSetsEveryRegister :=
  ⟨⟨rfl, rfl, rfl, rfl, rfl, rfl, rfl, rfl⟩,
    fun s rest hi => ⟨_, step_powerOn hi, holdsResetValues_powerOn s rest⟩,
    fun s hf => ⟨_, exec_sysReset hf, holdsResetValues_resetRegs s .none⟩,
    roundConstant_eq_table, rotOffset_eq_table⟩

/-- Settles O8: a power-on reset is `State.powerOn`, and a micro-step leaves the host's moves alone. -/
theorem powerOnResetAbandonsTheCommand : Obligations.PowerOnResetAbandonsTheCommand := by
  refine ⟨fun s rest hi => ⟨_, step_powerOn hi, holdsResetValues_powerOn s rest, rfl, rfl, rfl⟩, fun s c rest hi hb => ?_⟩
  have hheld := step_held hi hb
  exact ⟨hheld, fun t ht => (microStep_frame (hheld.symm.trans ht)).1⟩

/-- Settles O10: SYS.RESET and SYS.STATUS look at FSM themselves, every other command through `State.inIdle`. -/
theorem execRefusesWhileASequenceRuns : Obligations.ExecRefusesWhileASequenceRuns := by
  intro s i hb
  cases i with
  | sysReset | sysStatus =>
    simp only [exec, execSysReset, execSysStatus]
    cases hf : s.fsm with
    | idle | fault =>
      rw [hf] at hb
      cases hb
    | _ => rfl
  | _ => exact State.inIdle_busy hb _

end Sys2Proof.Machine
end

section
/-! The sequence of micro-steps does not depend on data (rule R175): engines that differ in nothing but the values of STATE, of PBUF
and of the operand take the same branch of every check and the same row of R125, so that they run in lockstep. -/

namespace Sys2Proof.Machine

/-! ### Engines that differ in data alone -/

/-- The length of an operand, for the kinds that have one. -/
def operandLength : Data → Nat
  | .bytes m => m.length
  | .bits b => b.length
  | .none | .lane _ | .state _ | .word _ => 0

/-- `t` differs from `s` in nothing but the values of STATE, of the bits in PBUF and in the operand, and the response. -/
structure SameButData (s t : State) : Prop where
  fsm : s.fsm = t.fsm
  rnd : s.rnd = t.rnd
  blk : s.blk = t.blk
  nblk : s.nblk = t.nblk
  sqz : s.sqz = t.sqz
  pbuf : s.pbuf.length = t.pbuf.length
  err : s.err = t.err
  cmd : s.cmd = t.cmd
  kind : s.din.kind = t.din.kind
  length : operandLength s.din = operandLength t.din
  inbox : s.inbox = t.inbox
  cfg : s.cfg = t.cfg

theorem control_eq_fields (s : State) :
    control s = (s.fsm, s.rnd, s.blk, s.nblk, s.sqz, s.pbuf.length, s.din.kind, operandLength s.din) := rfl

/-- Both outcomes are next states, and these differ in data alone. -/
def Lockstep (x y : Result) : Prop := ∃ u v, x = .next u ∧ y = .next v ∧ SameButData u v

theorem Lockstep.next {u v : State} (h : SameButData u v) : Lockstep (.next u) (.next v) := ⟨u, v, rfl, rfl, h⟩

section
variable {s t : State} (h : SameButData s t)
include h

theorem SameButData.control_eq : control s = control t := by
  rw [control_eq_fields, control_eq_fields, h.fsm, h.rnd, h.blk, h.nblk, h.sqz, h.pbuf, h.kind, h.length]

theorem SameButData.bytes (hk : s.din.kind = .bytes) :
    ∃ m m', s.din = .bytes m ∧ t.din = .bytes m' ∧ m.length = m'.length := by
  obtain ⟨m, hd⟩ := Data.kind_eq_bytes.mp hk
  obtain ⟨m', hd'⟩ := Data.kind_eq_bytes.mp (h.kind.symm.trans hk)
  have hlength := h.length
  rw [hd, hd'] at hlength
  exact ⟨m, m', hd, hd', hlength⟩

theorem SameButData.bits (hk : s.din.kind = .bits) :
    ∃ b b', s.din = .bits b ∧ t.din = .bits b' ∧ b.length = b'.length := by
  obtain ⟨b, hd⟩ := Data.kind_eq_bits.mp hk
  obtain ⟨b', hd'⟩ := Data.kind_eq_bits.mp (h.kind.symm.trans hk)
  have hlength := h.length
  rw [hd, hd'] at hlength
  exact ⟨b, b', hd, hd', hlength⟩

theorem SameButData.setState (S T : KState) : SameButData { s with state := S } { t with state := T } := { h with }

theorem SameButData.permNextRound (S T : KState) : SameButData (s.permNextRound S) (t.permNextRound T) :=
  { h with rnd := congrArg (· + 1) h.rnd }

theorem SameButData.permNextBlock (S T : KState) : SameButData (s.permNextBlock S) (t.permNextBlock T) :=
  { h with fsm := rfl, rnd := rfl, blk := congrArg (· + 1) h.blk }

theorem SameButData.permToSqueeze (S T : KState) : SameButData (s.permToSqueeze S) (t.permToSqueeze T) :=
  { h with fsm := rfl, rnd := rfl, blk := rfl }

theorem SameButData.permFinish (S T : KState) : SameButData (s.permFinish S) (t.permFinish T) :=
  { h with fsm := rfl, rnd := rfl, blk := rfl, nblk := rfl, pbuf := rfl, cmd := rfl, kind := rfl, length := rfl }

theorem SameButData.squeezeStep : SameButData s.squeezeStep t.squeezeStep :=
  { h with fsm := rfl, nblk := rfl, sqz := rfl, pbuf := rfl, cmd := rfl, kind := rfl, length := rfl }

theorem SameButData.xorStep : SameButData s.xorStep t.xorStep := { h with fsm := rfl, rnd := rfl }

theorem SameButData.padStep {m m' : List Byte} (hlen : m.length = m'.length) : SameButData (s.padStep m) (t.padStep m') := by
  have hpad : (pad (bytesToBits m)).length = (pad (bytesToBits m')).length := by
    rw [length_pad_bytes, length_pad_bytes, hlen]
  exact { h with fsm := rfl, pbuf := hpad, nblk := congrArg (· / 1088) hpad, blk := rfl, sqz := rfl }

theorem SameButData.beginAbsorb {b b' : Bits} (hlen : b.length = b'.length) :
    SameButData (s.beginAbsorb b) (t.beginAbsorb b') :=
  { h with fsm := rfl, pbuf := hlen, nblk := rfl, blk := rfl, sqz := rfl }

theorem SameButData.beginHash : SameButData s.beginHash t.beginHash := { h with fsm := rfl }

theorem Lockstep.completes (d e : Data) : Lockstep (completes s d) (completes t e) :=
  .next { h with cmd := rfl, kind := rfl, length := rfl }

theorem Lockstep.raises (code : ErrCode) : Lockstep (raises s code) (raises t code) :=
  .next { h with fsm := rfl, err := rfl, cmd := rfl, kind := rfl, length := rfl }

/-- A check of R153 on the operand's length. -/
theorem Lockstep.check {p q : Prop} [Decidable p] [Decidable q] {x y : Result} (hpq : p ↔ q) (code : ErrCode)
    (hxy : Lockstep x y) :
    Lockstep (if p then x else Machine.raises s code) (if q then y else Machine.raises t code) := by
  by_cases hp : p
  · rwa [if_pos hp, if_pos (hpq.mp hp)]
  · rw [if_neg hp, if_neg (mt hpq.mpr hp)]
    exact .raises h code

end

/-! ### Commands -/

/-- In IDLE the checks of R153 read the command and the kind and length of its operand alone. -/
theorem exec_idle_lockstep (i : Instr) {s t : State} (hs : s.fsm = .idle) (h : SameButData s t) :
    Lockstep (exec i s) (exec i t) := by
  have ht : t.fsm = .idle := h.fsm.symm.trans hs
  by_cases hreset : i = .sysReset
  · subst hreset
    rw [exec_sysReset (.inl hs), exec_sysReset (.inl ht)]
    exact .next ⟨rfl, rfl, rfl, rfl, rfl, rfl, rfl, rfl, rfl, rfl, h.inbox, h.cfg⟩
  by_cases hindex : ∃ ir, i = .kfRound ir ∧ 24 ≤ ir
  · obtain ⟨ir, rfl, hir⟩ := hindex
    rw [exec_kfRound_roundIndex hs hir, exec_kfRound_roundIndex ht hir]
    exact .raises h _
  have hround : ∀ ir, i = .kfRound ir → ir < 24 := fun ir hi => by_contra fun hir => hindex ⟨ir, hi, by omega⟩
  rcases ne_or_eq s.din.kind i.operandKind with hk | hk
  · rw [exec_operandKind hs hreset hround hk, exec_operandKind ht hreset hround (h.kind ▸ hk)]
    exact .raises h _
  have hk' : t.din.kind = i.operandKind := h.kind.symm.trans hk
  cases i with
  | sysReset => exact absurd rfl hreset
  | sysNop =>
    rw [exec_sysNop hs (Data.kind_eq_none.mp hk), exec_sysNop ht (Data.kind_eq_none.mp hk')]
    exact .completes h _ _
  | sysStatus =>
    rw [exec_sysStatus (.inl ⟨hs, Data.kind_eq_none.mp hk⟩), exec_sysStatus (.inl ⟨ht, Data.kind_eq_none.mp hk'⟩)]
    exact .completes h _ _
  | spInit =>
    rw [exec_spInit hs (Data.kind_eq_none.mp hk), exec_spInit ht (Data.kind_eq_none.mp hk')]
    exact .completes (h.setState _ _) _ _
  | spSqueeze =>
    rw [exec_spSqueeze hs (Data.kind_eq_none.mp hk), exec_spSqueeze ht (Data.kind_eq_none.mp hk')]
    exact .completes h _ _
  | cvLane2bits =>
    obtain ⟨v, hd⟩ := Data.kind_eq_lane.mp hk
    obtain ⟨v', hd'⟩ := Data.kind_eq_lane.mp hk'
    rw [exec_cvLane2bits hs hd, exec_cvLane2bits ht hd']
    exact .completes h _ _
  | kfRound ir =>
    obtain ⟨S, hd⟩ := Data.kind_eq_state.mp hk
    obtain ⟨T, hd'⟩ := Data.kind_eq_state.mp hk'
    rw [exec_kfRound hs ⟨ir, hround ir rfl⟩ hd, exec_kfRound ht ⟨ir, hround ir rfl⟩ hd']
    exact .completes h _ _
  | kfPermute =>
    obtain ⟨S, hd⟩ := Data.kind_eq_state.mp hk
    obtain ⟨T, hd'⟩ := Data.kind_eq_state.mp hk'
    rw [exec_kfPermute hs hd, exec_kfPermute ht hd']
    exact .completes h _ _
  | cvB2bits =>
    obtain ⟨m, m', hd, hd', -⟩ := h.bytes hk
    rw [exec_cvB2bits hs hd, exec_cvB2bits ht hd']
    exact .completes h _ _
  | spHash =>
    obtain ⟨m, m', hd, hd', hlen⟩ := h.bytes hk
    rw [exec_spHash hs hd, exec_spHash ht hd']
    exact .check h (by rw [h.cfg, hlen]) _ (.completes (h.setState _ _) _ _)
  | cvBits2b =>
    obtain ⟨b, b', hd, hd', hlen⟩ := h.bits hk
    rw [exec_cvBits2b hs hd, exec_cvBits2b ht hd']
    exact .check h (by rw [hlen]) _ (.completes h _ _)
  | cvBits2lane =>
    obtain ⟨b, b', hd, hd', hlen⟩ := h.bits hk
    rw [exec_cvBits2lane hs hd, exec_cvBits2lane ht hd']
    exact .check h (by rw [hlen]) _ (.completes h _ _)
  | pdPad =>
    obtain ⟨b, b', hd, hd', hlen⟩ := h.bits hk
    rw [exec_pdPad hs hd, exec_pdPad ht hd']
    exact .check h (by rw [hlen]) _ (.completes h _ _)
  | spAbsorb =>
    obtain ⟨b, b', hd, hd', hlen⟩ := h.bits hk
    rw [exec_spAbsorb hs hd, exec_spAbsorb ht hd']
    exact .check h (by rw [hlen]) _ (.completes (h.setState _ _) _ _)

theorem runCommand_lockstep {s t : State} (hs : s.fsm = .idle) (h : SameButData s t) :
    Lockstep (runCommand s) (runCommand t) := by
  cases hdec : decode s.cmd with
  | error e =>
    rw [runCommand_illegal_idle hs hdec, runCommand_illegal_idle (h.fsm.symm.trans hs) (h.cmd ▸ hdec)]
    exact .raises h _
  | ok i =>
    rw [runCommand_ok hdec, runCommand_ok (h.cmd ▸ hdec)]
    exact exec_idle_lockstep i hs h

/-- An acceptance row of R125 applies: SP.ABSORB with a block, or SP.HASH with a message within the build's bound. -/
def Begins (s : State) : Prop :=
  (decode s.cmd = .ok .spAbsorb ∧ s.din.kind = .bits ∧ operandLength s.din = 1088) ∨
  (decode s.cmd = .ok .spHash ∧ s.din.kind = .bytes ∧ s.cfg.exceeds (operandLength s.din) = false)

theorem SameButData.begins_iff {s t : State} (h : SameButData s t) : Begins s ↔ Begins t := by
  rw [Begins, Begins, h.cmd, h.kind, h.length, h.cfg]

theorem beginCommand_of_not_begins {s : State} (hs : ¬ Begins s) : beginCommand s = runCommand s := by
  unfold beginCommand
  split
  case h_1 blk hdec _ hd => exact if_neg fun hlen => hs (.inl ⟨hdec, by rw [hd]; rfl, by rw [hd]; exact hlen⟩)
  case h_2 m hdec _ hd =>
    exact if_pos (by_contra fun hfits => hs (.inr ⟨hdec, by rw [hd]; rfl, by rw [hd]; exact Bool.eq_false_iff.mpr hfits⟩))
  case h_3 => rfl

/-- The acceptance rows of R125 read the command word and the operand's kind and length alone. -/
theorem beginCommand_lockstep {s t : State} (hs : s.fsm = .idle) (h : SameButData s t) :
    Lockstep (beginCommand s) (beginCommand t) := by
  have ht : t.fsm = .idle := h.fsm.symm.trans hs
  by_cases hbegins : Begins s
  · rcases hbegins with ⟨hdec, hk, hlength⟩ | ⟨hdec, hk, hfits⟩
    · obtain ⟨b, b', hd, hd', hlen⟩ := h.bits hk
      rw [hd] at hlength
      rw [beginCommand_spAbsorb hs hdec hd hlength,
        beginCommand_spAbsorb ht (h.cmd ▸ hdec) hd' (hlen.symm.trans hlength)]
      exact .next (h.beginAbsorb hlen)
    · obtain ⟨m, m', hd, hd', hlen⟩ := h.bytes hk
      rw [hd] at hfits
      have hfits' : t.cfg.exceeds m'.length = false := by
        rw [← h.cfg, ← hlen]
        exact hfits
      rw [beginCommand_spHash hs hdec hd hfits, beginCommand_spHash ht (h.cmd ▸ hdec) hd' hfits']
      exact .next h.beginHash
  · rw [beginCommand_of_not_begins hbegins, beginCommand_of_not_begins (mt h.begins_iff.mpr hbegins)]
    exact runCommand_lockstep hs h

/-! ### Micro-steps -/

/-- A whole block in PBUF, from its length. -/
theorem le_length_of_length_blockAt {P : Bits} {j : Nat} (h : (blockAt P j).length = 1088) : 1088 * j + 1088 ≤ P.length := by
  rw [blockAt, length_slice] at h
  omega

/-- Of the rows of R125 with FSM = PERM, RND, BLK, NBLK and SQZ choose one. -/
theorem microStep_perm_lockstep {s t u : State} (h : SameButData s t) (hf : s.fsm = .perm) (hs : permStep s = .next u) :
    Lockstep (microStep s) (microStep t) := by
  have hf' : t.fsm = .perm := h.fsm.symm.trans hf
  obtain ⟨-, ⟨hround, -⟩ | ⟨hrnd, hblk, -⟩ | ⟨hrnd, hblk, hsqz, -⟩ | ⟨hrnd, hblk, hsqz, -⟩⟩ := permStep_cases hs
  · rw [microStep_round hf hround, microStep_round hf' (h.rnd ▸ hround)]
    exact .next (h.permNextRound _ _)
  all_goals
    have hrnd : s.rnd = 23 := BitVec.eq_of_toNat_eq hrnd
    have hrnd' : t.rnd = 23 := h.rnd.symm.trans hrnd
    have hblk' := hblk
    rw [h.blk, h.nblk] at hblk'
  · rw [microStep_nextBlock hf hrnd hblk, microStep_nextBlock hf' hrnd' hblk']
    exact .next (h.permNextBlock _ _)
  · rw [microStep_toSqueeze hf hrnd hblk hsqz, microStep_toSqueeze hf' hrnd' hblk' (h.sqz ▸ hsqz)]
    exact .next (h.permToSqueeze _ _)
  · rw [microStep_finish hf hrnd hblk hsqz, microStep_finish hf' hrnd' hblk' (h.sqz ▸ hsqz)]
    exact .next (h.permFinish _ _)

/-- The row of R125 that applies is the same, and so is what it writes besides data. -/
theorem microStep_lockstep {s t u : State} (h : SameButData s t) (hs : microStep s = .next u) :
    Lockstep (microStep s) (microStep t) := by
  rcases microStep_cases hs with ⟨hf, _, hd, -⟩ | ⟨hf, hblk, -⟩ | ⟨hf, hp⟩ | ⟨hf, -⟩ <;>
    have hf' := h.fsm.symm.trans hf
  · obtain ⟨m, m', hd, hd', hlen⟩ := h.bytes (congrArg Data.kind hd)
    rw [microStep_pad hf hd, microStep_pad hf' hd']
    exact .next (h.padStep hlen)
  · have hle := le_length_of_length_blockAt hblk
    rw [microStep_xor hf hle, microStep_xor hf' (by rwa [← h.blk, ← h.pbuf])]
    exact .next h.xorStep
  · exact microStep_perm_lockstep h hf hp
  · rw [microStep_squeeze hf, microStep_squeeze hf']
    exact .next h.squeezeStep

/-! ### Runs -/

/-- At a command boundary with no move to come the micro-step view waits (R163). -/
theorem microViewStep_waiting {s : State} (hi : s.inbox = []) (hb : s.fsm.busy = false) : microViewStep s = .next s := by
  simp [microViewStep, hi, hb]

theorem runWith_waiting {s : State} (hi : s.inbox = []) (hb : s.fsm.busy = false) (n : Nat) :
    runWith microViewStep n s = .next s := by
  induction n with
  | zero => rfl
  | succ n ih => rw [runWith_succ (microViewStep_waiting hi hb), ih]

theorem noResetNext_nil : NoResetNext [] := nofun

theorem microViewStep_lockstep {s t u : State} (h : SameButData s t) (hi : s.inbox = []) (hs : microViewStep s = .next u) :
    Lockstep (microViewStep s) (microViewStep t) ∧ u.inbox = [] := by
  cases hb : s.fsm.busy with
  | true =>
    have hview : microViewStep s = microStep s := microViewStep_busy hb (hi ▸ noResetNext_nil)
    have hview' : microViewStep t = microStep t := microViewStep_busy (h.fsm ▸ hb) (h.inbox ▸ hi ▸ noResetNext_nil)
    rw [hview] at hs
    rw [hview, hview']
    exact ⟨microStep_lockstep h hs, (microStep_frame hs).1.trans hi⟩
  | false =>
    rw [microViewStep_waiting hi hb] at hs ⊢
    rw [microViewStep_waiting (h.inbox ▸ hi) (h.fsm ▸ hb)]
    obtain rfl := Host.Outcome.next.inj hs
    exact ⟨.next h, hi⟩

/-- With no move of the host to come, engines that differ in data alone run in lockstep as long as the first runs. -/
theorem runWith_lockstep {n : Nat} {s t u : State} (h : SameButData s t) (hi : s.inbox = [])
    (hs : runWith microViewStep n s = .next u) : Lockstep (runWith microViewStep n s) (runWith microViewStep n t) := by
  induction n generalizing s t with
  | zero => exact .next h
  | succ n ih =>
    cases hstep : microViewStep s with
    | next s' =>
      obtain ⟨⟨s₁, t', hs₁, ht', h'⟩, hi'⟩ := microViewStep_lockstep h hi hstep
      obtain rfl := Host.Outcome.next.inj (hs₁.symm.trans hstep)
      rw [runWith_succ hstep] at hs ⊢
      rw [runWith_succ ht']
      exact ih h' hi' hs
    | fault r => simp [runWith, hstep] at hs
    | refused r => simp [runWith, hstep] at hs

/-- Between commands the micro-step view accepts the presented command (R39, R125). -/
theorem microViewStep_command {s : State} {c : Command} {rest : List HostMove} (hf : s.fsm = .idle ∨ s.fsm = .fault)
    (hi : s.inbox = .command c :: rest) : microViewStep s = beginCommand (s.accept c rest) := by
  simp [microViewStep, hi, not_busy_of_boundary hf]

/-- A sequence that ends its command, with no move to come, is followed by waiting. -/
theorem MicroRun.runs {m : Nat} {s t : State} {S : KState} {d : Data} (h : MicroRun m s ((t.ended S).ok d))
    (hi : t.inbox = []) (n : Nat) : ∃ u, runWith microViewStep n s = .next u := by
  obtain ⟨hrun, hbusy⟩ := h
  rcases Nat.lt_or_ge n m with hn | hn
  · obtain ⟨u, hu, -⟩ := hbusy n hn
    exact ⟨u, hu⟩
  · obtain ⟨k, rfl⟩ := Nat.exists_eq_add_of_le hn
    exact ⟨_, (runWith_add hrun k).trans (runWith_waiting (s := (t.ended S).ok d) hi rfl k)⟩

/-- What becomes of an accepted command leaves the moves still to come alone. -/
theorem beginCommand_inbox {s t : State} (hb : s.fsm.busy = false) (h : beginCommand s = .next t) : t.inbox = s.inbox := by
  rcases beginCommand_cases h with hrun | ⟨-, ⟨blk, -, -, rfl⟩ | ⟨m, -, -, rfl⟩⟩
  · rcases runCommand_cases hb hrun with ⟨-, rfl⟩ | ⟨-, code, -, rfl⟩ | ⟨-, rfl⟩ | ⟨S, d, -, rfl⟩ <;> rfl
  · rfl
  · rfl

/-- A command accepted in IDLE is answered or begins a sequence that runs to its end, and then the engine waits. -/
theorem runs_of_beginCommand {s t : State} (hs : s.fsm = .idle) (hquiet : SequencerQuiet s) (hi : s.inbox = [])
    (h : beginCommand s = .next t) (n : Nat) : ∃ u, runWith microViewStep n t = .next u := by
  have hreset : NoResetNext s.inbox := hi ▸ noResetNext_nil
  have ⟨hrnd, _⟩ := hquiet
  rcases beginCommand_cases h with hrun | ⟨-, ⟨blk, -, hlen, rfl⟩ | ⟨m, hd, -, rfl⟩⟩
  · obtain ⟨⟨hboundary, -⟩, -⟩ := runCommand_atCommandBoundary ⟨.inl hs, hquiet⟩ hrun
    have hinbox := (beginCommand_inbox (not_busy_of_boundary (.inl hs)) h).trans hi
    exact ⟨t, runWith_waiting hinbox (not_busy_of_boundary hboundary) n⟩
  · exact (microRun_absorb hreset hlen).runs hi n
  · exact (microRun_hash hreset hrnd hd).runs hi n

/-- Two engines that accept a command in IDLE in states `a` and `b` that differ in data alone run in lockstep from there. -/
theorem runWith_accepted_lockstep {s t a b : State} (hs : microViewStep s = beginCommand a)
    (ht : microViewStep t = beginCommand b) (hf : a.fsm = .idle) (hquiet : SequencerQuiet a) (hi : a.inbox = [])
    (h : SameButData a b) (n : Nat) :
    Lockstep (runWith microViewStep (n + 1) s) (runWith microViewStep (n + 1) t) := by
  obtain ⟨u, v, hu, hv, huv⟩ := beginCommand_lockstep hf h
  have hinbox := (beginCommand_inbox (not_busy_of_boundary (.inl hf)) hu).trans hi
  obtain ⟨w, hw⟩ := runs_of_beginCommand hf hquiet hi hu n
  rw [runWith_succ (hs.trans hu), runWith_succ (ht.trans hv)]
  exact runWith_lockstep huv hinbox hw

/-- Settles O42: from acceptance on, the two engines differ in data alone, and `control` holds no data. -/
theorem controlIsIndependentOfData : Obligations.ControlIsIndependentOfData := by
  intro s t w d e n hs hquiet hi ht hk hlen
  have hlength : operandLength d = operandLength e := by
    cases d with
    | bytes a =>
      obtain ⟨b, rfl⟩ := Data.kind_eq_bytes.mp hk.symm
      exact hlen
    | bits a =>
      obtain ⟨b, rfl⟩ := Data.kind_eq_bits.mp hk.symm
      exact hlen
    | _ =>
      cases e with
      | bytes b | bits b => cases hk
      | _ => rfl
  generalize t.state = T at ht
  subst ht
  cases n with
  | zero => exact ⟨_, _, rfl, rfl, rfl, rfl⟩
  | succ n =>
    have haccepted : SameButData (s.accept ⟨w, d⟩ [])
        ({ s with state := T, inbox := [.command ⟨w, e⟩] }.accept ⟨w, e⟩ []) :=
      ⟨rfl, rfl, rfl, rfl, rfl, rfl, rfl, rfl, hk, hlength, rfl, rfl⟩
    have hview := microViewStep_command (s := { s with state := T, inbox := [.command ⟨w, e⟩] }) (.inl hs) rfl
    obtain ⟨u, v, hu, hv, huv⟩ :=
      runWith_accepted_lockstep (microViewStep_command (.inl hs) hi) hview hs hquiet rfl haccepted n
    exact ⟨u, v, hu, hv, huv.control_eq, huv.err⟩

end Sys2Proof.Machine
end
